-- ==== Sys2Proof/Word.lean ====
section
/-! DEFINITION. The machine words of the EH-260: a wire byte, the 32-bit time counter and the
36-bit sub-microsecond time (spec/00_scope.md, Time; R51, R146). -/

namespace Sys2Proof

/-- One byte of a port or of the control link (12_formats_and_pins.md). -/
abbrev Byte := BitVec 8

/-- A reading of the time counter: microseconds, wrapping at 2^32 (R146). -/
abbrev Time := BitVec 32

/-- A time in sub-microsecond units of 1/16 µs, taken modulo 2^36 (R51). -/
abbrev Time16 := BitVec 36

end Sys2Proof
end

