-- ==== Sys2Proof/Syntax.lean ====
section
/-! DEFINITION. The commands: one constructor for each row of spec/opcode_table.json. A frame row carries
the bytes of its frame, a byte row the byte the host wrote, a row about one of the two chains the chain.
A request row carries nothing: its operands are the parameter bytes that the link has received
(R164, R166), and they stand in `State.link` (notes/assumptions/2.md). -/

namespace Sys2Proof

/-- The two radio chains (R108). -/
inductive Chain where
  | A
  | B
deriving DecidableEq, Repr

/-- The commands of the part, in the order of the table. -/
inductive Instr where
  /-- Power is applied or RESET_N asserted (R28 and every block's reset rule). -/
  | powerOnReset
  /-- A detector frame reaches its tenth byte (R30, R209). -/
  | reportArrival (frame : List Byte)
  /-- A detector frame ends with fewer than ten bytes (R209). -/
  | detectorFrameDiscarded (bytes : List Byte)
  /-- DETECTOR READY is deasserted (R35). -/
  | detectorReadyDeasserted
  /-- DETECTOR READY is asserted again (R35). -/
  | detectorReadyAsserted
  /-- The association engine takes the head report and applies it (R39). -/
  | takeReport
  /-- The epoch timer reaches 100,000 (R147). -/
  | epochBoundary
  /-- The epoch timer reaches 50,000 (R134, R147). -/
  | midEpoch
  /-- The controller takes the advisor's waiting request for the chain (R140). -/
  | automaticMove (c : Chain)
  /-- A scheduler frame reaches its eighth byte (R85, R210). -/
  | queryArrival (frame : List Byte)
  /-- A scheduler frame ends with fewer than eight bytes (R210). -/
  | schedulerFrameDiscarded (bytes : List Byte)
  /-- The arbiter hands the idle engine over (R88, R90). -/
  | evaluationStart
  /-- The result of the evaluation in progress leaves (R101). -/
  | delivery
  /-- The oldest waiting answer is sent on the answer lines (R210). -/
  | answerFrameSent
  /-- The host asserts select (R160). -/
  | selectAsserted
  /-- An exchange that returns the status byte; the first one of a transaction gives its type (R160). -/
  | statusExchange (transfer : Byte)
  /-- The host deasserts select (R162). -/
  | selectDeasserted
  /-- A byte written in IDLE (R165). -/
  | requestCode (b : Byte)
  /-- A byte written in COMMAND (R166). -/
  | parameterByte (b : Byte)
  /-- A byte written in the EXECUTION of a short request (R167). -/
  | ignoredByte (b : Byte)
  /-- A byte written in the EXECUTION of a SWEEP or a PREVIEW (R170). -/
  | abort (b : Byte)
  /-- A byte written in RESULT (R169). -/
  | abandon (b : Byte)
  /-- An exchange of a READ transaction (R161, R168). -/
  | readResultByte
  /-- READ STATUS executes (R172). -/
  | readStatus
  /-- RESET executes: a soft reset (R173). -/
  | reset
  /-- SET DOMAIN executes (R112). -/
  | setDomain
  /-- SET PARAMETER executes (R175). -/
  | setParameter
  /-- SET NOTICE LEVEL executes (R177). -/
  | setNoticeLevel
  /-- SET TUNE CODE executes (R110). -/
  | setTuneCode
  /-- SET AUTO executes (R128). -/
  | setAuto
  /-- RESTORE CLOCK executes (R154). -/
  | restoreClock
  /-- MOVE executes (R115). -/
  | move
  /-- STEP executes (R116). -/
  | step
  /-- SET CHANNEL executes (R117). -/
  | setChannel
  /-- ABORT MOVE executes (R125). -/
  | abortMove
  /-- The chain's LOCK input changes to asserted (R119, R123). -/
  | lockAsserted (c : Chain)
  /-- The chain's LOCK input changes to deasserted (R122, R123). -/
  | lockDeasserted (c : Chain)
  /-- The chain's lock timer expires (R120). -/
  | lockTimerExpiry (c : Chain)
  /-- The chain's dwell timer expires (R121). -/
  | dwellTimerExpiry (c : Chain)
  /-- PIN executes (R189). -/
  | pin
  /-- SET ORIGIN executes (R190). -/
  | setOrigin
  /-- RETIRE executes (R191). -/
  | retire
  /-- OPEN executes (R181). -/
  | openRecord
  /-- READ executes (R182). -/
  | readRecord
  /-- EDIT executes (R183). -/
  | editField
  /-- CLOSE executes (R184). -/
  | closeRecord
  /-- NEXT executes (R187). -/
  | nextRecord
  /-- SWEEP executes: it starts, or is refused (R192). -/
  | sweep
  /-- The sweep in progress examines one slot (R194). -/
  | sweepExamination
  /-- PREVIEW executes: it becomes waiting, or is refused (R103). -/
  | preview
  /-- READ COSTS executes (R144). -/
  | readCosts
  /-- FETCH NOTICE executes (R204). -/
  | fetchNotice
  /-- The reference input becomes ABSENT (R149). -/
  | referenceLoss
  /-- The reference input becomes PRESENT (R149, R150). -/
  | referenceReturn
  /-- The qualification expiry is reached (R150). -/
  | qualificationExpiry
deriving DecidableEq, Repr

end Sys2Proof
end

