-- ==== Sys2Proof/Config.lean ====
section
/-! DEFINITION. The free values: the orders that the manual leaves open. Each is a constant without a
body, so nothing can be proved of what it is; `State.freeCount` gives every use a fresh argument
(notes/assumptions/4.md to 6.md, 8.md). -/

namespace Sys2Proof

/-- R23 leaves open which of the share update and aging's retirement is taken first at a boundary on a
held record: true says the share update (notes/assumptions/4.md). -/
opaque Config.airtimeFirst : Nat → Bool

/-- R66 leaves open which of the rebase and aging's retirement is taken first at a boundary on a held
record: true says the rebase (notes/assumptions/4.md). -/
opaque Config.rebaseFirst : Nat → Bool

/-- R17 gives no order among the slots that aging examines, so the order in which the retirement
notices of one boundary reach the list is free: the rank of a slot at the boundary numbered by the
first argument (notes/assumptions/5.md). -/
opaque Config.agingRank : Nat → Nat → Nat

/-- R136 gives no order between the two chain evaluations of one mid-epoch: true says that chain B's
ADVICE is raised before chain A's where both complete (notes/assumptions/6.md). -/
opaque Config.adviceBFirst : Nat → Bool

/-- The manual gives no order among the works that stand ready inside the part, no time that each takes,
and no time at which the host begins an exchange: which of these comes next while no command waits is
free (notes/assumptions/8.md, 29.md). -/
opaque Config.idleChoice : Nat → Nat

end Sys2Proof
end

