-- ==== Sys2Proof/Machine/State.lean ====
section
/-! DEFINITION. The state of the EH-260, block by block, as plain data, and its value right after a
power-on reset. INVENTORY.md lists every field with the rule that names it. -/

namespace Sys2Proof.Machine

/-! ### The Interferer Table (chapter 1) -/

/-- What an interferer is (R4). -/
inductive Kind where
  | oven
  | neighbour
  | steady
deriving DecidableEq, Repr

/-- The states of an occupied slot (R5); a FREE slot holds no record. -/
inductive RecState where
  | candidate
  | tracked
  | coasting
  | retired
deriving DecidableEq, Repr

/-- R6. -/
inductive Origin where
  | learned
  | pinned
deriving DecidableEq, Repr

/-- A closed interval of frequency offsets (R8). -/
structure Span where
  lo : Nat
  hi : Nat
deriving DecidableEq, Repr

/-- What the last rebase made of an anchor (R65). -/
structure Rebase where
  before : Time16
  after : Time16
deriving DecidableEq, Repr

/-- The oven part (R9). The last two fields are the model's own, for a commit of P that falls together with a
rebase (R66, notes/assumptions/31.md): `former` is what the rebase of the last boundary did, and `stood` the P16
that stood before a commit of P at a boundary whose rebase is still to come. -/
structure OvenPart where
  periodKnown : Bool
  p16 : Nat
  phaseKnown : Bool
  a16 : Time16
  d : Nat
  w : Nat
  former : Option Rebase := none
  stood : Option Nat := none
deriving DecidableEq, Repr

/-- The three airtime fields of a NEIGHBOUR or STEADY record (R70). -/
structure Airtime where
  share : Nat
  acc : Nat
  level : Int
deriving DecidableEq, Repr

/-- The part of a record's kind; a record carries one part and no other (R4, R9, R10, R11). -/
inductive Part where
  | oven (o : OvenPart)
  | neighbour (tag : BitVec 16) (channel : Nat) (air : Airtime)
  | steady (air : Airtime)
deriving DecidableEq, Repr

/-- The contents of an occupied slot: the common fields of R7 and the kind's part. -/
structure Record where
  part : Part
  state : RecState
  origin : Origin
  held : Bool
  span : Span
  hits : Nat
  idle : Nat
  emptyStreak : Nat
  hitFlag : Bool
  age : Nat
  seq : BitVec 16
deriving DecidableEq, Repr

/-- A slot: its generation, kept in every state (R1), and its record; `none` is FREE (R5, R24). -/
structure Slot where
  gen : BitVec 4
  record : Option Record
deriving DecidableEq, Repr

/-- The five state counts of R3. -/
structure StateCounts where
  free : Nat
  candidate : Nat
  tracked : Nat
  coasting : Nat
  retired : Nat
deriving DecidableEq, Repr

/-- The table's 64 slots and its table-wide state (R3). -/
structure Table where
  slots : List Slot
  seqCounter : BitVec 16
  pinned : Nat
  counts : StateCounts
deriving DecidableEq, Repr

/-! ### Burst intake and association (chapter 2) -/

/-- The signature of a report; a PREAMBLE carries the network tag (R29, R33). -/
inductive Signature where
  | preamble (tag : BitVec 16)
  | swept
  | steady
deriving DecidableEq, Repr

/-- One entry of the report queue (R33). -/
structure Report where
  start : Time
  duration : Nat
  centre : Nat
  span : Span
  level : Int
  signature : Signature
deriving DecidableEq, Repr

/-- The last epoch that an overflow has made blind (R35). -/
inductive BlindThrough where
  | none
  | current
  | next
deriving DecidableEq, Repr

/-- The association engine (R39). -/
inductive EngineState where
  | waiting
  | applying
deriving DecidableEq, Repr

/-- The intake, the DETECTOR READY input as last seen, and the association engine's state. -/
structure Intake where
  queue : List Report
  blindThrough : BlindThrough
  notReadySeen : Bool
  detectorReady : Bool
  engine : EngineState
deriving DecidableEq, Repr

/-! ### Timebase (chapter 8) -/

/-- R148. -/
inductive ClockState where
  | internalStart
  | reference
  | fallback
deriving DecidableEq, Repr

/-- How far the present reference has come toward being trusted (R149, R150). -/
inductive Qualification where
  | idle
  | qualifying (expiry : Time)
  | qualified
deriving DecidableEq, Repr

/-- The time counter, the epoch timer and the supervision of the reference. `boundaryDue` and `midDue`
are the model's own: the counter stands at an epoch instant whose work has not been taken yet
(notes/assumptions/7.md). -/
structure Timebase where
  time : Time
  epochTimer : Nat
  boundaryDue : Bool
  midDue : Bool
  clock : ClockState
  refPresent : Bool
  qual : Qualification
deriving DecidableEq, Repr

/-! ### Radio chains (chapter 6) -/

/-- R109. -/
inductive ChainState where
  | unset
  | ready
  | retuning
  | dwell
  | fault
deriving DecidableEq, Repr

/-- Who started a chain's latest move (R108). -/
inductive MoveOrigin where
  | control
  | advisor
deriving DecidableEq, Repr

/-- One radio chain (R108) with its lines (R111). A timer is `none` while stopped. `strobes` is the
model's own count of the pulses on the tune strobe (notes/assumptions/12.md). `handed` is the channel of the
automatic move that the advisor has handed over and the controller has not taken yet (R140 to R142,
notes/assumptions/15.md). -/
structure ChainRec where
  state : ChainState
  present : Option Nat
  target : Option Nat
  origin : MoveOrigin
  lockTimer : Option Time
  dwellTimer : Option Time
  holdOff : Nat
  auto : Bool
  streak : Nat
  lastAdvised : Option Nat
  handed : Option Nat
  tuneOut : BitVec 12
  strobes : Nat
  lockIn : Bool
deriving DecidableEq, Repr

/-- The regulatory domain (R112). -/
inductive Domain where
  | A
  | B
  | C
deriving DecidableEq, Repr

/-- The Chain Controller: both chains, the tune map of channels 1 to 14 (entry n - 1 is channel n, 0 is
unset, R110), the domain and its lock. -/
structure Radio where
  chainA : ChainRec
  chainB : ChainRec
  tuneMap : List (BitVec 12)
  domain : Domain
  domainLock : Bool
deriving DecidableEq, Repr

/-! ### Channel advisor (chapter 7) -/

/-- The three figures of one channel (R133). -/
structure CostRow where
  oven : Nat
  network : Nat
  cost : Nat
deriving DecidableEq, Repr

/-- The advisor's own state (R133); entry n - 1 of `costs` is channel n. -/
structure Advisor where
  costs : List CostRow
  costed : Bool
deriving DecidableEq, Repr

/-! ### Window predictor (chapter 5) -/

/-- One accepted query (R85). -/
structure Query where
  tag : Byte
  chain : Chain
  arrival : Time
  t0 : Time
  d : Nat
  h : Nat
deriving DecidableEq, Repr

/-- The one PREVIEW request (R103). -/
structure PreviewReq where
  chain : Chain
  arrival : Time
  t0 : Time
  d : Nat
  h : Nat
deriving DecidableEq, Repr

/-- A relevant oven as the snapshot keeps it (R91). -/
structure SnapOven where
  a16 : Time16
  p16 : Nat
  d : Nat
  wEff : Nat
deriving DecidableEq, Repr

/-- The snapshot of an evaluation (R91). -/
structure Snapshot where
  chain : Chain
  state : ChainState
  present : Option Nat
  clock : ClockState
  ovens : List SnapOven
  leftOut : Nat
  load : Nat
  guardTime : Nat
deriving DecidableEq, Repr

/-- What an evaluation has found against its snapshot (R94, R97 to R100). -/
inductive Finding where
  | notReady
  | none (grade : Nat)
  | window (startOffset freeLength grade : Nat)
deriving DecidableEq, Repr

/-- Whom the evaluation engine serves (R88). -/
inductive Client where
  | scheduler
  | preview
deriving DecidableEq, Repr

/-- The evaluation engine (R88). -/
inductive Engine where
  | idle
  | evaluating (client : Client) (snap : Snapshot) (found : Finding)
deriving DecidableEq, Repr

/-- The result names of the Introduction, Results. -/
inductive Result where
  | ok | invalid | busy | stale | empty | gone | locked | conflict | notPermitted | noTuneCode
  | full | none | aborted | noReference | notOpen | idle | refused | window | notReady
deriving DecidableEq, Repr

/-- An answer to a window query (R87). -/
structure Answer where
  tag : Byte
  status : Result
  startOffset : Nat
  freeLength : Nat
  grade : Nat
deriving DecidableEq, Repr

/-- The predictor: the scheduler queue, the PREVIEW, the engine, the answers that have left the part and
wait for the answer lines (R210), and the frame last put on those lines. -/
structure Predictor where
  queue : List Query
  preview : Option PreviewReq
  engine : Engine
  answers : List Answer
  answerLines : List Byte
deriving DecidableEq, Repr

/-! ### Control link (chapter 9) -/

/-- The transaction in progress (R160); `opened` has not had its status exchange yet. -/
inductive Transaction where
  | none
  | opened
  | write
  | read
  | status
deriving DecidableEq, Repr

/-- R164. -/
inductive Phase where
  | idle
  | command
  | execution
  | result
deriving DecidableEq, Repr

/-- What the status byte shows: the link's phase and the ATTENTION output (R163). -/
structure Standing where
  phase : Phase
  attention : Bool
deriving DecidableEq, Repr

/-- The link's state (R160, R164). `entered` is the time of the last entry into EXECUTION (R103). `begun` is
what the status byte showed at the start of the exchange under way, `none` where none is (R161,
notes/assumptions/29.md). `miso` is the byte that the last complete exchange of the transaction shifted out;
`none` while the line is high impedance or no exchange is complete. -/
structure Link where
  transaction : Transaction
  phase : Phase
  code : Option Byte
  expected : Nat
  params : List Byte
  result : List Byte
  consumed : Nat
  entered : Time
  begun : Option Standing
  miso : Option Byte
deriving DecidableEq, Repr

/-! ### Record cursor and sweeps (chapter 10) -/

/-- The staged values of the editable fields (R180, R183). -/
structure Staged where
  spanLow : Option Nat
  spanHigh : Option Nat
  p : Option Nat
  d : Option Nat
  w : Option Nat
  channel : Option Nat
  tag : Option Nat
deriving DecidableEq, Repr

/-- The open cursor: the handle it holds and what is staged (R180). -/
structure Cursor where
  slot : Nat
  gen : BitVec 4
  staged : Staged
deriving DecidableEq, Repr

/-- The fields a sweep can compare (R192). -/
inductive SweepField where
  | spanLow | spanHigh | hits | share | period | channel | tag | idle
deriving DecidableEq, Repr

/-- R192. -/
inductive SweepCond where
  | equal | atMost | atLeast
deriving DecidableEq, Repr

/-- The filter of a sweep (R192, R193). `kind` is `none` for ANY. -/
structure SweepFilter where
  kind : Option Kind
  states : List RecState
  field : SweepField
  cond : SweepCond
  key : Nat
deriving DecidableEq, Repr

/-- A sweep in its examination (R194); a match is its slot and generation. -/
structure Sweep where
  filter : SweepFilter
  maximum : Nat
  clamped : Bool
  next : Nat
  examined : Nat
  found : List (Nat × BitVec 4)
deriving DecidableEq, Repr

/-! ### Notices (chapter 11) -/

/-- The eleven notice kinds, in kind order (R198). -/
inductive NoticeKind where
  | ovenConfirmed
  | ovenRetired
  | neighbourConfirmed
  | neighbourRetired
  | tableFull
  | intakeOverflow
  | clockFallback
  | referencePresent
  | moveDone
  | moveFailed
  | advice
deriving DecidableEq, Repr

/-- What a notice is about (R197). -/
inductive Subject where
  | handle (slot : Nat) (gen : BitVec 4)
  | chain (c : Chain)
  | none
  | several
deriving DecidableEq, Repr

/-- Why a move failed (R130). -/
inductive FailCause where
  | noLock
  | lockLost
deriving DecidableEq, Repr

/-- The data of a notice, by kind (R198). -/
inductive NoticeData where
  | none
  | moveDone (dwellCut : Bool) (origin : MoveOrigin)
  | moveFailed (cause : FailCause) (origin : MoveOrigin)
  | advice (channel : Nat)
deriving DecidableEq, Repr

/-- An entry of the list (R197). Its age is its position: the list is kept oldest first. -/
structure Entry where
  kind : NoticeKind
  subject : Subject
  count : Nat
  data : NoticeData
deriving DecidableEq, Repr

/-- The levels that SET NOTICE LEVEL can change (R202), in kind order; CLOCK_FALLBACK's is fixed at 7
(R177, R198) and is not stored. -/
structure Levels where
  ovenConfirmed : Nat
  ovenRetired : Nat
  neighbourConfirmed : Nat
  neighbourRetired : Nat
  tableFull : Nat
  intakeOverflow : Nat
  referencePresent : Nat
  moveDone : Nat
  moveFailed : Nat
  advice : Nat
deriving DecidableEq, Repr

/-- The notice list, the levels and the ATTENTION output. -/
structure Notices where
  entries : List Entry
  levels : Levels
  attention : Bool
deriving DecidableEq, Repr

/-! ### Parameters (R174) -/

/-- The fourteen parameters, in the order of their ids. -/
structure Params where
  lockTimeout : Nat
  dwellTime : Nat
  guardTime : Nat
  ovenTolerance : Nat
  ovenConfirm : Nat
  neighbourConfirm : Nat
  steadyConfirm : Nat
  candidateLimit : Nat
  ovenRetire : Nat
  neighbourRetire : Nat
  adviceMargin : Nat
  advicePersist : Nat
  autoHoldoff : Nat
  attentionThreshold : Nat
deriving DecidableEq, Repr

/-! ### The whole -/

/-- The state of the part. `freeCount` (the argument of the free values) and `pending` (the commands that
wait, first in, first out) are the model's own. -/
structure State where
  timebase : Timebase
  table : Table
  intake : Intake
  predictor : Predictor
  radio : Radio
  advisor : Advisor
  link : Link
  cursor : Option Cursor
  sweep : Option Sweep
  notices : Notices
  params : Params
  freeCount : Nat
  pending : List Instr
deriving DecidableEq, Repr

/-- No step of the part faults: every event of the manual leaves a state of the part. -/
inductive Fault where
deriving DecidableEq, Repr

/-- Why a command is not run. -/
inductive Refusal where
  /-- Raised by `exec`'s arm of a command that has no meaning yet; safe. No arm raises it now. -/
  | notModelled (mnemonic : String)
deriving DecidableEq, Repr

/-! ### Reset values -/

/-- A FREE slot of generation 0 (R28). -/
def Slot.reset : Slot := { gen := 0, record := none }

/-- R28. -/
def Table.reset : Table :=
  { slots := List.replicate 64 Slot.reset, seqCounter := 0, pinned := 0,
    counts := { free := 64, candidate := 0, tracked := 0, coasting := 0, retired := 0 } }

/-- R38, R39. The level of DETECTOR READY is the detector's; asserted is a choice
(notes/assumptions/9.md). -/
def Intake.reset : Intake :=
  { queue := [], blindThrough := .none, notReadySeen := false, detectorReady := true,
    engine := .waiting }

/-- R159. -/
def Timebase.reset : Timebase :=
  { time := 0, epochTimer := 0, boundaryDue := false, midDue := false, clock := .internalStart,
    refPresent := false, qual := .idle }

/-- R131. The level of LOCK is the synthesiser's; deasserted is a choice (notes/assumptions/9.md). -/
def ChainRec.reset : ChainRec :=
  { state := .unset, present := none, target := none, origin := .control, lockTimer := none,
    dwellTimer := none, holdOff := 255, auto := false, streak := 0, lastAdvised := none, handed := none,
    tuneOut := 0, strobes := 0, lockIn := false }

/-- R131. -/
def Radio.reset : Radio :=
  { chainA := ChainRec.reset, chainB := ChainRec.reset, tuneMap := List.replicate 14 0,
    domain := .A, domainLock := false }

/-- R133, R145. -/
def Advisor.reset : Advisor :=
  { costs := List.replicate 14 { oven := 0, network := 0, cost := 0 }, costed := false }

/-- R107, R210. -/
def Predictor.reset : Predictor :=
  { queue := [], preview := none, engine := .idle, answers := [], answerLines := [] }

/-- R164. -/
def Link.reset : Link :=
  { transaction := .none, phase := .idle, code := none, expected := 0, params := [], result := [],
    consumed := 0, entered := 0, begun := none, miso := none }

/-- The default levels of R198. -/
def Levels.reset : Levels :=
  { ovenConfirmed := 4, ovenRetired := 3, neighbourConfirmed := 2, neighbourRetired := 1,
    tableFull := 5, intakeOverflow := 5, referencePresent := 3, moveDone := 4,
    moveFailed := 6, advice := 3 }

/-- R206. -/
def Notices.reset : Notices := { entries := [], levels := Levels.reset, attention := false }

/-- The power-on defaults of R174. -/
def Params.reset : Params :=
  { lockTimeout := 2000, dwellTime := 20, guardTime := 200, ovenTolerance := 1500, ovenConfirm := 3,
    neighbourConfirm := 2, steadyConfirm := 3, candidateLimit := 5, ovenRetire := 50,
    neighbourRetire := 200, adviceMargin := 40, advicePersist := 3, autoHoldoff := 100,
    attentionThreshold := 0 }

/-- The part right after a power-on reset, with no command waiting. -/
def State.reset : State :=
  { timebase := Timebase.reset, table := Table.reset, intake := Intake.reset,
    predictor := Predictor.reset, radio := Radio.reset, advisor := Advisor.reset,
    link := Link.reset, cursor := none, sweep := none, notices := Notices.reset,
    params := Params.reset, freeCount := 0, pending := [] }

end Sys2Proof.Machine
end

