-- ==== Sys2Proof/Machine/Operands.lean ====
section
/-! DEFINITION. Operands and wire formats: the manual's arithmetic words, the byte order, the codes of
chapter 12, the frames of the two ports, and the request codes with their parameter counts. -/

namespace Sys2Proof.Machine

/-! ### Arithmetic words (00_scope.md) -/

/-- Clamped to lo..hi. -/
def clampNat (lo hi x : Nat) : Nat := max lo (min hi x)

/-- Clamped to lo..hi. -/
def clampInt (lo hi x : Int) : Int := max lo (min hi x)

/-- Incremented, saturating at 255. -/
def satInc255 (n : Nat) : Nat := min 255 (n + 1)

/-- The quotient a/b rounded, ties toward +∞, for b above 0. -/
def roundDiv (a b : Int) : Int := (2 * a + b) / (2 * b)

/-- The quotient a/b rounded, ties toward the smaller integer, for b above 0 (R54 step 2). -/
def roundDivDown (a b : Int) : Int := -((b - 2 * a) / (2 * b))

/-- The quotient a/b truncated toward zero. -/
def truncDiv (a b : Int) : Int := Int.tdiv a b

/-- The ceiling of a/b, for b above 0. -/
def ceilDiv (a b : Int) : Int := -((-a) / b)

/-- Among the elements of a list, the first that no later one betters: a tie goes to the earlier. -/
def firstBest {α : Type} (better : α → α → Bool) : List α → Option α
  | [] => none
  | x :: xs => some (xs.foldl (fun best y => if better y best then y else best) x)

/-! ### Bytes, most significant first (12_formats_and_pins.md) -/

/-- The value of a string of bytes. -/
def valueOf (bs : List Byte) : Nat := bs.foldl (fun n b => n * 256 + b.toNat) 0

/-- A value as one byte. -/
def byteOf (n : Nat) : Byte := BitVec.ofNat 8 n

/-- A value as n bytes. -/
def bytesOf : Nat → Nat → List Byte
  | 0, _ => []
  | n + 1, v => byteOf (v / 256 ^ n) :: bytesOf n v

/-- A flag as a byte: 0x01 set, 0x00 clear. -/
def flagByte (b : Bool) : Byte := if b then 1 else 0

/-- A channel byte, 0x00 for none. -/
def channelByte (c : Option Nat) : Byte := byteOf (c.getD 0)

/-! ### Handles (12.1) -/

/-- slot × 16 + generation. -/
def handleValue (slot : Nat) (gen : BitVec 4) : Nat := slot * 16 + gen.toNat

/-- The two bytes that mean no record. -/
def noHandle : List Byte := [0xFF, 0xFF]

/-- The two bytes of a handle. -/
def handleBytes (slot : Nat) (gen : BitVec 4) : List Byte := bytesOf 2 (handleValue slot gen)

/-! ### Codes (12.1, R207) -/

/-- A chain byte of a request (R207). -/
def chainOf (b : Byte) : Option Chain :=
  if b = 0x00 then some .A else if b = 0x01 then some .B else none

def Kind.code : Kind → Byte
  | .oven => 0x01
  | .neighbour => 0x02
  | .steady => 0x03

def kindOf (b : Byte) : Option Kind :=
  if b = 0x01 then some .oven else if b = 0x02 then some .neighbour
  else if b = 0x03 then some .steady else none

/-- A SWEEP kind filter: 0x00 is ANY, given as `some none`. -/
def kindFilterOf (b : Byte) : Option (Option Kind) :=
  if b = 0x00 then some none else (kindOf b).map some

def RecState.code : RecState → Byte
  | .candidate => 0x01
  | .tracked => 0x02
  | .coasting => 0x03
  | .retired => 0x04

def ChainState.code : ChainState → Byte
  | .unset => 0x00
  | .ready => 0x01
  | .retuning => 0x02
  | .dwell => 0x03
  | .fault => 0x04

def ClockState.code : ClockState → Byte
  | .internalStart => 0x00
  | .reference => 0x01
  | .fallback => 0x02

def Domain.code : Domain → Byte
  | .A => 0x01
  | .B => 0x02
  | .C => 0x03

def domainOf (b : Byte) : Option Domain :=
  if b = 0x01 then some .A else if b = 0x02 then some .B
  else if b = 0x03 then some .C else none

def Origin.code : Origin → Byte
  | .learned => 0x00
  | .pinned => 0x01

def originOf (b : Byte) : Option Origin :=
  if b = 0x00 then some .learned else if b = 0x01 then some .pinned else none

/-- An on/off byte; a CLOSE mode byte is coded alike, true being COMMIT (R207). -/
def onOffOf (b : Byte) : Option Bool :=
  if b = 0x00 then some false else if b = 0x01 then some true else none

/-- The fields that EDIT can stage (R183). -/
inductive EditField where
  | spanLow | spanHigh | p | d | w | channel | tag
deriving DecidableEq, Repr

def editFieldOf (b : Byte) : Option EditField :=
  if b = 0x01 then some .spanLow else if b = 0x02 then some .spanHigh
  else if b = 0x03 then some .p else if b = 0x04 then some .d
  else if b = 0x05 then some .w else if b = 0x06 then some .channel
  else if b = 0x07 then some .tag else none

def sweepFieldOf (b : Byte) : Option SweepField :=
  if b = 0x01 then some .spanLow else if b = 0x02 then some .spanHigh
  else if b = 0x03 then some .hits else if b = 0x04 then some .share
  else if b = 0x05 then some .period else if b = 0x06 then some .channel
  else if b = 0x07 then some .tag else if b = 0x08 then some .idle else none

def sweepCondOf (b : Byte) : Option SweepCond :=
  if b = 0x00 then some .equal else if b = 0x01 then some .atMost
  else if b = 0x02 then some .atLeast else none

/-- The state set of a SWEEP state byte, after skip-retired (bit 7) is applied (R192, R207). -/
def sweepStatesOf (b : Byte) : List RecState :=
  (if b.getLsbD 0 then [.candidate] else []) ++ (if b.getLsbD 1 then [.tracked] else [])
    ++ (if b.getLsbD 2 then [.coasting] else [])
    ++ (if b.getLsbD 3 && !b.getLsbD 7 then [.retired] else [])

/-- The result codes of R208. -/
def Result.code : Result → Byte
  | .ok => 0x00
  | .invalid => 0x01
  | .busy => 0x02
  | .stale => 0x03
  | .empty => 0x04
  | .gone => 0x05
  | .locked => 0x06
  | .conflict => 0x07
  | .notPermitted => 0x08
  | .noTuneCode => 0x09
  | .full => 0x0A
  | .none => 0x0B
  | .aborted => 0x0C
  | .noReference => 0x0D
  | .notOpen => 0x0E
  | .idle => 0x0F
  | .refused => 0x10
  | .window => 0x11
  | .notReady => 0x12

/-- The codes of R198; they also number the kind order. -/
def NoticeKind.code : NoticeKind → Nat
  | .ovenConfirmed => 1
  | .ovenRetired => 2
  | .neighbourConfirmed => 3
  | .neighbourRetired => 4
  | .tableFull => 5
  | .intakeOverflow => 6
  | .clockFallback => 7
  | .referencePresent => 8
  | .moveDone => 9
  | .moveFailed => 10
  | .advice => 11

def noticeKindOf (b : Byte) : Option NoticeKind :=
  [.ovenConfirmed, .ovenRetired, .neighbourConfirmed, .neighbourRetired, .tableFull,
    .intakeOverflow, .clockFallback, .referencePresent, .moveDone, .moveFailed, .advice].find?
    (fun k : NoticeKind => k.code == b.toNat)

/-- The two bytes of a notice's subject (12.2). -/
def Subject.bytes : Subject → List Byte
  | .handle slot gen => handleBytes slot gen
  | .chain .A => [0xF0, 0x00]
  | .chain .B => [0xF0, 0x01]
  | .several => [0xFF, 0xFE]
  | .none => [0xFF, 0xFF]

def MoveOrigin.bit : MoveOrigin → Nat
  | .control => 0
  | .advisor => 1

/-- The data byte of a notice (12.2); of MOVE_DONE and MOVE_FAILED bits 7 to 2 read 0, which the manual leaves
open (notes/assumptions/32.md, DESIGN CHOICE). -/
def NoticeData.byte : NoticeData → Byte
  | .none => 0x00
  | .moveDone cut origin => byteOf ((if cut then 1 else 0) + 2 * origin.bit)
  | .moveFailed .noLock origin => byteOf (2 * origin.bit)
  | .moveFailed .lockLost origin => byteOf (1 + 2 * origin.bit)
  | .advice ch => byteOf ch

/-! ### Frequencies (00_scope.md, Frequency and channels) -/

/-- The centre offset of a channel. -/
def channelCentre (n : Nat) : Nat := if n = 14 then 84 else 7 + 5 * n

/-- The span of a channel. -/
def channelSpan (n : Nat) : Span := { lo := channelCentre n - 10, hi := channelCentre n + 10 }

/-- The width of a span. -/
def Span.width (x : Span) : Nat := x.hi - x.lo

/-- Two spans overlap when each one's low edge is at or below the other's high edge. -/
def Span.overlaps (x y : Span) : Bool := decide (x.lo ≤ y.hi) && decide (y.lo ≤ x.hi)

/-- The overlap's width, for spans that overlap. -/
def Span.overlapWidth (x y : Span) : Nat := min x.hi y.hi - max x.lo y.lo

/-- The highest channel of a domain. -/
def Domain.highest : Domain → Nat
  | .A => 11
  | .B => 13
  | .C => 14

/-- A channel that the domain permits. -/
def Domain.permits (d : Domain) (ch : Nat) : Bool := decide (1 ≤ ch) && decide (ch ≤ d.highest)

/-! ### Burst reports (R29 to R32, 12.4) -/

/-- A burst report as its frame gives it (R29). -/
structure BurstReport where
  signature : Byte
  age : Nat
  duration : Nat
  centre : Nat
  width : Nat
  level : Int
  tag : BitVec 16
deriving DecidableEq, Repr

/-- The report of a frame's first ten bytes; later bytes are ignored (R209). -/
def burstReportOf : List Byte → Option BurstReport
  | s :: a1 :: a0 :: d1 :: d0 :: c :: w :: l :: t1 :: t0 :: _ =>
    some { signature := s, age := valueOf [a1, a0] % 4096, duration := valueOf [d1, d0],
           centre := c.toNat % 128, width := w.toNat % 64, level := l.toInt,
           tag := BitVec.ofNat 16 (valueOf [t1, t0]) }
  | _ => none

/-- The signature of a report; an unassigned code gives none (R32). -/
def BurstReport.signatureOf (r : BurstReport) : Option Signature :=
  if r.signature = 0x01 then some (.preamble r.tag)
  else if r.signature = 0x02 then some .swept
  else if r.signature = 0x03 then some .steady else none

/-- The span of R31, from the clamped centre and width. -/
def reportSpan (centre width : Nat) : Span :=
  { lo := (clampInt 0 100 ((2 * (centre : Int) - width) / 2)).toNat,
    hi := (clampInt 0 100 (ceilDiv (2 * (centre : Int) + width) 2)).toNat }

/-- R30, R31: stamped at the arrival and clamped; none where R32 discards the report. -/
def BurstReport.stamp (r : BurstReport) (arrival : Time) : Option Report :=
  match r.signatureOf with
  | none => none
  | some sig =>
    if r.duration = 0 then none
    else
      let centre := clampNat 0 100 r.centre
      some { start := arrival - BitVec.ofNat 32 r.age, duration := r.duration, centre := centre,
             span := reportSpan centre (clampNat 1 40 r.width),
             level := clampInt (-100) (-10) r.level, signature := sig }

/-! ### Window queries (R83, R84, R103, 12.4) -/

/-- The fields that a window query and a PREVIEW share, after the handling of R83. The chain is none for
the codes 0b10 and 0b11 (R207). -/
structure WindowAsk where
  chain : Option Chain
  offset : Nat
  d : Nat
  h : Nat
deriving DecidableEq, Repr

/-- The control byte and the three values of a query or a PREVIEW (R83, R207). -/
def windowAskOf (control : Byte) (offset duration horizonLow : Nat) : WindowAsk :=
  { chain := chainOf (control &&& 0x03), offset := offset, d := clampNat 1 16000 duration,
    h := clampNat 1 100000 ((if control.getLsbD 7 then 65536 else 0) + horizonLow) }

/-- The tag and the fields of a query frame's first eight bytes (R210). -/
def queryOf : List Byte → Option (Byte × WindowAsk)
  | tag :: control :: o1 :: o0 :: d1 :: d0 :: h1 :: h0 :: _ =>
    some (tag, windowAskOf control (valueOf [o1, o0]) (valueOf [d1, d0]) (valueOf [h1, h0]))
  | _ => none

/-- An answer frame (12.4). -/
def Answer.frame (a : Answer) : List Byte :=
  [a.tag, a.status.code] ++ bytesOf 3 a.startOffset ++ bytesOf 3 a.freeLength ++ [byteOf a.grade]

/-! ### Requests (12.2) -/

/-- One row of the request table: the code, the count of parameter bytes, the command that executes
it. -/
structure RequestRow where
  code : Byte
  count : Nat
  command : Instr
deriving DecidableEq, Repr

/-- The assigned request codes (12.2). -/
def requestTable : List RequestRow :=
  [⟨0x01, 0, .readStatus⟩, ⟨0x02, 0, .reset⟩, ⟨0x10, 1, .setDomain⟩, ⟨0x11, 3, .setParameter⟩,
   ⟨0x12, 2, .setNoticeLevel⟩, ⟨0x13, 3, .setTuneCode⟩, ⟨0x14, 2, .setAuto⟩,
   ⟨0x15, 0, .restoreClock⟩, ⟨0x20, 2, .move⟩, ⟨0x21, 2, .step⟩, ⟨0x22, 2, .setChannel⟩,
   ⟨0x23, 1, .abortMove⟩, ⟨0x30, 13, .pin⟩, ⟨0x31, 3, .setOrigin⟩, ⟨0x32, 2, .retire⟩,
   ⟨0x40, 2, .openRecord⟩, ⟨0x41, 0, .readRecord⟩, ⟨0x42, 4, .editField⟩, ⟨0x43, 1, .closeRecord⟩,
   ⟨0x44, 0, .nextRecord⟩, ⟨0x50, 8, .sweep⟩, ⟨0x51, 7, .preview⟩, ⟨0x52, 0, .readCosts⟩,
   ⟨0x60, 0, .fetchNotice⟩]

/-- The row of a code; none for an unassigned code (R165). -/
def requestRow (b : Byte) : Option RequestRow := requestTable.find? (fun r => r.code == b)

/-- The code of SWEEP. -/
def sweepCode : Byte := 0x50

/-- The code of PREVIEW. -/
def previewCode : Byte := 0x51

end Sys2Proof.Machine
end

