-- ==== Sys2Proof/Machine/Flags.lean ====
section
/-! DEFINITION. The flags that the part computes from its state: the status byte, the result byte with
its clamped flag, the blind flag, and the judgement of ATTENTION. -/

namespace Sys2Proof.Machine

/-- The level a kind holds (R202); CLOCK_FALLBACK's is fixed at 7 (R177, R198). -/
def Levels.level (l : Levels) : NoticeKind → Nat
  | .ovenConfirmed => l.ovenConfirmed
  | .ovenRetired => l.ovenRetired
  | .neighbourConfirmed => l.neighbourConfirmed
  | .neighbourRetired => l.neighbourRetired
  | .tableFull => l.tableFull
  | .intakeOverflow => l.intakeOverflow
  | .clockFallback => 7
  | .referencePresent => l.referencePresent
  | .moveDone => l.moveDone
  | .moveFailed => l.moveFailed
  | .advice => l.advice

/-- A kind's level is set; CLOCK_FALLBACK's stays (R177). -/
def Levels.setLevel (l : Levels) (k : NoticeKind) (v : Nat) : Levels :=
  match k with
  | .ovenConfirmed => { l with ovenConfirmed := v }
  | .ovenRetired => { l with ovenRetired := v }
  | .neighbourConfirmed => { l with neighbourConfirmed := v }
  | .neighbourRetired => { l with neighbourRetired := v }
  | .tableFull => { l with tableFull := v }
  | .intakeOverflow => { l with intakeOverflow := v }
  | .clockFallback => l
  | .referencePresent => { l with referencePresent := v }
  | .moveDone => { l with moveDone := v }
  | .moveFailed => { l with moveFailed := v }
  | .advice => { l with advice := v }

/-- R203: a pending entry's kind holds a level above the threshold, or a CLOCK_FALLBACK is pending. -/
def Notices.judgement (n : Notices) (threshold : Nat) : Bool :=
  n.entries.any (fun e => decide (threshold < n.levels.level e.kind) || e.kind == .clockFallback)

/-- ATTENTION is judged again, and the line follows (R203). -/
def State.judge (s : State) : State :=
  { s with notices :=
      { s.notices with attention := s.notices.judgement s.params.attentionThreshold } }

/-- R36 step 1, R37: the epoch in progress will be reported blind. -/
def Intake.blindFlag (k : Intake) : Bool := k.blindThrough != .none || k.notReadySeen

/-- The first result byte: the code in bits 6..0, the clamped flag in bit 7 (R171, R208). -/
def resultByte (r : Result) (clamped : Bool) : Byte := if clamped then r.code ||| 0x80 else r.code

/-- RFM, DTH and CIP of a phase, as bits 0, 1 and 2 (R163, R208). -/
def Phase.bits : Phase → Byte
  | .idle => 0x01
  | .command => 0x05
  | .execution => 0x04
  | .result => 0x07

/-- The status byte (R163, R208): 0101, ATN, CIP, DTH, RFM. -/
def Standing.byte (x : Standing) : Byte :=
  0x50 ||| (if x.attention then 0x08 else 0x00) ||| x.phase.bits

/-- What the status byte shows now (R163). -/
def State.standing (s : State) : Standing :=
  { phase := s.link.phase, attention := s.notices.attention }

/-- What the status byte shows of the exchange that completes: the standing at its start (R161). An exchange
that began with no event since shows the present one. -/
def State.shown (s : State) : Standing := s.link.begun.getD s.standing

end Sys2Proof.Machine
end

