-- ==== Sys2Proof/Machine/Ops.lean ====
section
/-! DEFINITION. The operations that the meanings share: reading and writing a chain, a slot and a
parameter, raising a notice, ending a request, and letting time pass. -/

namespace Sys2Proof.Machine

/-! ### Chains -/

def Radio.chain (r : Radio) : Chain → ChainRec
  | .A => r.chainA
  | .B => r.chainB

def Radio.setChain (r : Radio) (c : Chain) (x : ChainRec) : Radio :=
  match c with
  | .A => { r with chainA := x }
  | .B => { r with chainB := x }

/-- The chain that a check of the other chain reads (R114). -/
def otherChain : Chain → Chain
  | .A => .B
  | .B => .A

def State.chain (s : State) (c : Chain) : ChainRec := s.radio.chain c

def State.setChain (s : State) (c : Chain) (x : ChainRec) : State :=
  { s with radio := s.radio.setChain c x }

/-- The tune map's entry of a channel 1..14 (R110). -/
def Radio.tuneCode (r : Radio) (ch : Nat) : BitVec 12 := r.tuneMap.getD (ch - 1) 0

/-! ### Slots and the table-wide counts (R1, R3) -/

/-- The state a slot is counted under; FREE is none. -/
def Slot.state (x : Slot) : Option RecState := x.record.map (·.state)

/-- A slot counts as pinned while its record is PINNED and not RETIRED (R3). -/
def Slot.pinnedOne (x : Slot) : Nat :=
  match x.record with
  | none => 0
  | some r => if r.origin = .pinned ∧ r.state ≠ .retired then 1 else 0

def StateCounts.inc (c : StateCounts) : Option RecState → StateCounts
  | none => { c with free := c.free + 1 }
  | some .candidate => { c with candidate := c.candidate + 1 }
  | some .tracked => { c with tracked := c.tracked + 1 }
  | some .coasting => { c with coasting := c.coasting + 1 }
  | some .retired => { c with retired := c.retired + 1 }

def StateCounts.dec (c : StateCounts) : Option RecState → StateCounts
  | none => { c with free := c.free - 1 }
  | some .candidate => { c with candidate := c.candidate - 1 }
  | some .tracked => { c with tracked := c.tracked - 1 }
  | some .coasting => { c with coasting := c.coasting - 1 }
  | some .retired => { c with retired := c.retired - 1 }

/-- The counts after a slot passes from `old` to `new` (R3). -/
def Table.moved (t : Table) (old new : Slot) : Table :=
  { t with counts := (t.counts.inc new.state).dec old.state,
           pinned := t.pinned + new.pinnedOne - old.pinnedOne }

/-- A slot by its number. -/
def Table.slot (t : Table) (i : Nat) : Slot := t.slots.getD i Slot.reset

/-- Slot `i` becomes `x`, and the counts follow. -/
def Table.replace (t : Table) (i : Nat) (x : Slot) : Table :=
  { t.moved (t.slot i) x with slots := t.slots.set i x }

/-- Every slot becomes what `f` makes of it, and the counts follow. -/
def Table.mapSlots (t : Table) (f : Slot → Slot) : Table :=
  { t.slots.foldl (fun acc x => acc.moved x (f x)) t with slots := t.slots.map f }

/-- The record of slot `i`, none for a FREE slot. -/
def Table.record (t : Table) (i : Nat) : Option Record := (t.slot i).record

/-- The record of slot `i` becomes `r`; the generation is kept. -/
def Table.put (t : Table) (i : Nat) (r : Record) : Table :=
  t.replace i { t.slot i with record := some r }

/-- A slot passes into FREE: no record, the generation incremented modulo 16 (R1, R24). -/
def Slot.freed (x : Slot) : Slot := { gen := x.gen + 1, record := none }

/-- Slot `i` passes into FREE. -/
def Table.release (t : Table) (i : Nat) : Table := t.replace i (t.slot i).freed

def State.putRecord (s : State) (i : Nat) (r : Record) : State :=
  { s with table := s.table.put i r }

/-! ### Parameters (R174, R175) -/

/-- The range of a parameter id; none for an id that is not in the table (R174). -/
def paramRange (id : Byte) : Option (Nat × Nat) :=
  [(1, 500, 10000), (2, 0, 200), (3, 0, 1000), (4, 250, 4000), (5, 2, 8), (6, 1, 8), (7, 1, 8),
    (8, 2, 50), (9, 10, 255), (10, 10, 255), (11, 0, 255), (12, 1, 15), (13, 0, 255),
    (14, 0, 7)].lookup id.toNat

/-- The parameter of an id takes a value. -/
def Params.write (p : Params) (id : Byte) (v : Nat) : Params :=
  match id.toNat with
  | 1 => { p with lockTimeout := v }
  | 2 => { p with dwellTime := v }
  | 3 => { p with guardTime := v }
  | 4 => { p with ovenTolerance := v }
  | 5 => { p with ovenConfirm := v }
  | 6 => { p with neighbourConfirm := v }
  | 7 => { p with steadyConfirm := v }
  | 8 => { p with candidateLimit := v }
  | 9 => { p with ovenRetire := v }
  | 10 => { p with neighbourRetire := v }
  | 11 => { p with adviceMargin := v }
  | 12 => { p with advicePersist := v }
  | 13 => { p with autoHoldoff := v }
  | 14 => { p with attentionThreshold := v }
  | _ => p

/-! ### Raising a notice (R199 to R201) -/

/-- The key of an entry is its kind with its subject (R197). -/
def Entry.hasKey (e : Entry) (k : NoticeKind) (subj : Subject) : Bool :=
  e.kind == k && e.subject == subj

/-- Another notice folds into an entry: the count, saturating, and the data; the age is kept. -/
def Entry.fold (e : Entry) (data : NoticeData) : Entry :=
  { e with count := satInc255 e.count, data := data }

/-- Apply `f` to the first entry that meets `p`. -/
def modifyFirst (p : Entry → Bool) (f : Entry → Entry) : List Entry → List Entry
  | [] => []
  | e :: es => if p e then f e :: es else e :: modifyFirst p f es

/-- The list holds at most this many entries (R197). -/
def noticeCapacity : Nat := 16

/-- R200: into the SEVERAL entry of the kind, otherwise into the oldest of the kind. -/
def mergeNotice (es : List Entry) (k : NoticeKind) (data : NoticeData) : List Entry :=
  let target : Entry → Bool :=
    if es.any (fun e => e.hasKey k .several) then fun e => e.hasKey k .several
    else fun e => e.kind == k
  modifyFirst target (fun e => { e.fold data with subject := .several }) es

/-- R201: the oldest entry of the lowest level goes, a CLOCK_FALLBACK excepted, and the new entry comes
in as the newest. -/
def replaceNotice (es : List Entry) (l : Levels) (new : Entry) : List Entry :=
  match firstBest (fun a b => decide (l.level a.kind < l.level b.kind))
      (es.filter (fun e => e.kind != .clockFallback)) with
  | none => es
  | some victim => es.erase victim ++ [new]

/-- The entries after a notice whose kind's level is above 0 (R199 steps 2 to 4). -/
def enterNotice (es : List Entry) (l : Levels) (k : NoticeKind) (subj : Subject)
    (data : NoticeData) : List Entry :=
  let new : Entry := { kind := k, subject := subj, count := 1, data := data }
  if es.any (fun e => e.hasKey k subj) then
    modifyFirst (fun e => e.hasKey k subj) (fun e => e.fold data) es
  else if es.length < noticeCapacity then es ++ [new]
  else if es.any (fun e => e.kind == k) then mergeNotice es k data
  else replaceNotice es l new

/-- A block raises a notice (R199). -/
def State.raise (s : State) (k : NoticeKind) (subj : Subject) (data : NoticeData) : State :=
  if s.notices.levels.level k = 0 then s
  else
    State.judge { s with notices :=
      { s.notices with entries := enterNotice s.notices.entries s.notices.levels k subj data } }

/-! ### The link's request (R164, R167, R168) -/

/-- The parameter bytes of the request with this code, while the link is in EXECUTION of it. -/
def State.request (s : State) (code : Byte) : Option (List Byte) :=
  if s.link.phase = .execution ∧ s.link.code = some code then some s.link.params else none

/-- A request ends: the link enters RESULT with the result bytes (R167, R168). -/
def State.finish (s : State) (bytes : List Byte) : State :=
  { s with link := { s.link with phase := .result, result := bytes, consumed := 0 } }

/-- A request ends with its result byte alone. -/
def State.answer (s : State) (r : Result) : State := s.finish [resultByte r false]

/-- A request ends with OK, the clamped flag as given, and further bytes. -/
def State.answerOk (s : State) (clamped : Bool) (more : List Byte) : State :=
  s.finish (resultByte .ok clamped :: more)

/-! ### Time (R146, R147) -/

/-- The length of an epoch in microseconds. -/
def epochLength : Nat := 100000

/-- Mid-epoch, in microseconds after the boundary. -/
def midEpochAt : Nat := 50000

/-- Time passes by `n` microseconds: the counter and the epoch timer advance together, and an epoch
instant that is reached becomes due. -/
def Timebase.advance (t : Timebase) (n : Nat) : Timebase :=
  let e := t.epochTimer + n
  { t with
    time := t.time + BitVec.ofNat 32 n
    epochTimer := e % epochLength
    boundaryDue := t.boundaryDue || decide (epochLength ≤ e)
    midDue := t.midDue || (decide (t.epochTimer < midEpochAt) && decide (midEpochAt ≤ e))
      || decide (epochLength + midEpochAt ≤ e) }

/-- The interval t2 − t1 as a signed value (00_scope.md, Time). -/
def interval (t1 t2 : Time) : Int := (t2 - t1).toInt

def State.now (s : State) : Time := s.timebase.time

/-- A time of the counter in sub-µs units (R51). -/
def to16 (t : Time) : Time16 := BitVec.ofNat 36 (t.toNat * 16)

/-- The expiry of a timer that starts now (R115, R119, R150). -/
def State.expiryAfter (s : State) (n : Nat) : Time := s.now + BitVec.ofNat 32 n

/-! ### The timed instants (R147, notes/assumptions/7.md)

The work of an instant is taken at that instant, and so no time passes over an instant whose work is
not taken. -/

/-- The microseconds until the counter reaches `e`; 0 where `e` is not ahead. -/
def Timebase.remaining (t : Timebase) (e : Time) : Nat := (interval t.time e).toNat

/-- The microseconds until the epoch boundary; 0 where the timer stands at it. -/
def Timebase.untilBoundary (t : Timebase) : Nat :=
  if t.boundaryDue then 0 else epochLength - t.epochTimer

/-- The microseconds until mid-epoch; 0 where the timer stands at it. -/
def Timebase.untilMidEpoch (t : Timebase) : Nat :=
  if t.midDue then 0
  else (if t.epochTimer < midEpochAt then midEpochAt else epochLength + midEpochAt) - t.epochTimer

/-- The expiry of the timer that runs in a chain's state (R109). -/
def ChainRec.expiry (c : ChainRec) : Option Time :=
  match c.state with
  | .retuning => c.lockTimer
  | .dwell => c.dwellTimer
  | .unset | .ready | .fault => none

/-- The expiry of a qualification in progress (R150). -/
def Qualification.expiry : Qualification → Option Time
  | .qualifying e => some e
  | .idle | .qualified => none

/-- The microseconds until each timed instant that lies ahead. -/
def State.instants (s : State) : List Nat :=
  [s.timebase.untilBoundary, s.timebase.untilMidEpoch]
    ++ ([s.radio.chainA.expiry, s.radio.chainB.expiry, s.timebase.qual.expiry].filterMap id).map
        s.timebase.remaining

/-- A request stands in EXECUTION and has not acted yet; it acts at its entry (R167). A SWEEP in its
examination and a PREVIEW that waits have acted. -/
def State.requestDue (s : State) : Bool :=
  s.link.phase == .execution
    && !(s.link.code == some sweepCode && s.sweep.isSome)
    && !(s.link.code == some previewCode && s.predictor.preview.isSome)

/-- An automatic move handed over at a mid-epoch is still to be taken; the controller takes it at that
mid-epoch (R141, notes/assumptions/15.md). -/
def State.moveDue (s : State) : Bool := s.radio.chainA.handed.isSome || s.radio.chainB.handed.isSome

/-- The next `n` microseconds pass over no timed instant, over no request that is due and over no automatic
move that is still to be taken. -/
def State.mayPass (s : State) (n : Nat) : Bool :=
  s.instants.all (fun m => decide (n ≤ m)) && (decide (n = 0) || !(s.requestDue || s.moveDue))

/-- A timed row `n` microseconds ahead: time passes to its instant and its work is done. Where an
earlier instant's work is not taken yet, the row's instant has not come (notes/assumptions/7.md). -/
def State.atInstant (s : State) (n : Nat) (work : State → State) : State :=
  if s.mayPass n then work { s with timebase := s.timebase.advance n } else s

end Sys2Proof.Machine
end

