-- ==== Sys2Proof/Machine/Table.lean ====
section
/-! DEFINITION. The Interferer Table (chapter 1): handles, taking a slot, creation, confirmation,
retirement and aging. -/

namespace Sys2Proof.Machine

/-! ### Records -/

def Part.kind : Part → Kind
  | .oven _ => .oven
  | .neighbour _ _ _ => .neighbour
  | .steady _ => .steady

def Record.kind (r : Record) : Kind := r.part.kind

/-- CANDIDATE, TRACKED or COASTING (R5). -/
def Record.live (r : Record) : Bool := r.state != .retired

/-- TRACKED or COASTING: what the predictor and the loads count (R5). -/
def Record.counted (r : Record) : Bool := r.state == .tracked || r.state == .coasting

/-- The occupied slots with their numbers, lowest first. -/
def Table.records (t : Table) : List (Nat × Record) :=
  t.slots.zipIdx.filterMap (fun x => x.1.record.map (fun r => (x.2, r)))

/-- The live records, lowest slot first. -/
def Table.liveRecords (t : Table) : List (Nat × Record) := t.records.filter (fun x => x.2.live)

/-- The oven part of an OVEN record. -/
def Record.oven? (r : Record) : Option OvenPart :=
  match r.part with
  | .oven o => some o
  | _ => none

/-- The live OVEN records with their parts, lowest slot first. -/
def Table.liveOvens (t : Table) : List (Nat × Record × OvenPart) :=
  t.liveRecords.filterMap (fun x => x.2.oven?.map (fun o => (x.1, x.2, o)))

/-- R3: the number of creations since the record's own, modulo 65,536. -/
def Table.seniority (t : Table) (r : Record) : Nat := (t.seqCounter - r.seq).toNat

/-- The oldest of some records; equal seniority goes to the earlier of the list (R3). -/
def Table.oldest (t : Table) (l : List (Nat × Record)) : Option (Nat × Record) :=
  firstBest (fun a b => decide (t.seniority b.2 < t.seniority a.2)) l

/-- The subject that names slot `i`'s record. -/
def Table.subject (t : Table) (i : Nat) : Subject := .handle i (t.slot i).gen

/-! ### Handles (R2) -/

/-- The outcome of resolving a handle. -/
inductive Resolved where
  | refused (r : Result)
  | record (slot : Nat) (r : Record)
deriving DecidableEq, Repr

/-- R2: the outcomes in the order the rule tests them. -/
def Table.resolve (t : Table) (handle : Nat) : Resolved :=
  if handle = 0xFFFF then .refused .empty
  else if 0x0400 ≤ handle then .refused .invalid
  else
    let x := t.slot (handle / 16)
    if x.gen ≠ BitVec.ofNat 4 (handle % 16) then .refused .stale
    else match x.record with
      | none => .refused .empty
      | some r => if r.state = .retired then .refused .empty else .record (handle / 16) r

/-! ### Taking a slot and creation (R12 to R14, R25) -/

/-- The lowest FREE slot (R12 step 1). -/
def Table.lowestFree (t : Table) : Option Nat := t.slots.findIdx? (fun x => x.record.isNone)

/-- The candidate that R12 step 2 evicts: the oldest that is not held. -/
def Table.evictable (t : Table) : Option Nat :=
  (t.oldest (t.records.filter (fun x => x.2.state == .candidate && !x.2.held))).map (·.1)

/-- R12: the slot taken, FREE in the table answered; none where no slot can be had. -/
def Table.takeSlot (t : Table) : Option (Nat × Table) :=
  match t.lowestFree with
  | some i => some (i, t)
  | none =>
    match t.evictable with
    | some i => some (i, t.release i)
    | none => none

/-- A record enters slot `i` with the counter's value as its creation sequence (R3, R14, R25). -/
def Table.enter (t : Table) (i : Nat) (r : Record) : Table :=
  { t.put i { r with seq := t.seqCounter } with seqCounter := t.seqCounter + 1 }

/-- The common values of a record created from a report (R14); `enter` gives the sequence. -/
def learnedRecord (span : Span) (part : Part) : Record :=
  { part := part, state := .candidate, origin := .learned, held := false, span := span, hits := 1,
    idle := 0, emptyStreak := 0, hitFlag := true, age := 0, seq := 0 }

/-- The common values of an installed record (R25); `enter` gives the sequence. -/
def pinnedRecord (span : Span) (part : Part) : Record :=
  { part := part, state := .tracked, origin := .pinned, held := false, span := span, hits := 0,
    idle := 0, emptyStreak := 0, hitFlag := false, age := 0, seq := 0 }

/-- Creation from a report; TABLE_FULL where no slot can be had (R12 to R14). -/
def State.create (s : State) (span : Span) (part : Part) : State :=
  match s.table.takeSlot with
  | some (i, t) => { s with table := t.enter i (learnedRecord span part) }
  | none => s.raise .tableFull .none .none

/-! ### Confirmation (R15, R16) -/

/-- R15, with the thresholds as they stand. -/
def Params.confirms (p : Params) (r : Record) : Bool :=
  match r.part with
  | .oven o => o.periodKnown && decide (p.ovenConfirm ≤ r.hits)
  | .neighbour _ _ _ => decide (p.neighbourConfirm ≤ r.hits)
  | .steady _ => decide (p.steadyConfirm ≤ r.hits)

/-- The notice of a confirmation (R16). -/
def Kind.confirmedNotice : Kind → NoticeKind
  | .oven => .ovenConfirmed
  | .neighbour | .steady => .neighbourConfirmed

/-- A candidate enters TRACKED (R16). -/
def Record.confirmed (r : Record) : Record :=
  { r with state := .tracked, idle := 0, emptyStreak := 0, age := 0 }

/-- The confirmation check on slot `i` (R16). -/
def State.confirm (s : State) (i : Nat) : State :=
  match s.table.record i with
  | some r =>
    if r.state = .candidate ∧ s.params.confirms r = true then
      (s.putRecord i r.confirmed).raise r.kind.confirmedNotice (s.table.subject i) .none
    else s
  | none => s

/-! ### Retirement (R22) -/

/-- A slot whose record is retired or expires: RETIRED while held, otherwise freed (R21, R22). -/
def Slot.retire (x : Slot) : Slot :=
  match x.record with
  | some r => if r.held then { x with record := some { r with state := .retired } } else x.freed
  | none => x

/-! ### Aging (R18 to R21) -/

/-- R18: the counters and the return to TRACKED. -/
def Record.countSilence (r : Record) (blind : Bool) : Record :=
  if blind then r
  else if r.hitFlag then
    { r with idle := 0, emptyStreak := 0,
             state := if r.state = .coasting then .tracked else r.state }
  else
    { r with idle := satInc255 r.idle,
             emptyStreak := if r.kind = .oven then satInc255 r.emptyStreak else r.emptyStreak }

/-- R19: the limit of a kind's silence. -/
def Record.fallsSilent (r : Record) : Bool :=
  match r.kind with
  | .oven => decide (2 ≤ r.emptyStreak)
  | .neighbour | .steady => decide (10 ≤ r.idle)

/-- R19. -/
def Record.coast (r : Record) : Record :=
  if r.state = .tracked ∧ r.fallsSilent = true then { r with state := .coasting } else r

/-- R20: the retire limit of a record's kind. -/
def Params.retireLimit (p : Params) (r : Record) : Nat :=
  match r.kind with
  | .oven => p.ovenRetire
  | .neighbour | .steady => p.neighbourRetire

/-- The notice of a retirement by aging (R20). -/
def Kind.retiredNotice : Kind → NoticeKind
  | .oven => .ovenRetired
  | .neighbour | .steady => .neighbourRetired

/-- What aging makes of a live record: it stays, or it leaves the live states, with a notice where the
rule raises one. -/
inductive Aged where
  | stays (r : Record)
  | leaves (r : Record) (notice : Option NoticeKind)
deriving DecidableEq, Repr

/-- R18 to R21 on one live record; the flag of a record that stays is cleared. -/
def Record.aged (r : Record) (p : Params) (blind : Bool) : Aged :=
  let r := (r.countSilence blind).coast
  if r.state = .coasting ∧ r.origin = .learned ∧ p.retireLimit r ≤ r.idle then
    .leaves r (some r.kind.retiredNotice)
  else
    let r := if r.state = .candidate then { r with age := satInc255 r.age } else r
    if r.state = .candidate ∧ p.candidateLimit ≤ r.age then .leaves r none
    else .stays { r with hitFlag := false }

end Sys2Proof.Machine
end

