-- ==== Sys2Proof/Machine/Oven.lean ====
section
/-! DEFINITION. Oven phase tracking (chapter 3): the effective tolerance, the phase match test, the hit
update, period acquisition and the rebase. -/

namespace Sys2Proof.Machine

/-- The range of P16 (R9). -/
def clampP16 (x : Int) : Nat := (clampInt 256000 336000 x).toNat

/-- The range of D (R9). -/
def clampD (x : Int) : Nat := (clampInt 1000 15000 x).toNat

/-- The range of W (R9). -/
def clampW (x : Int) : Nat := (clampInt 250 4000 x).toNat

/-- R53: W doubled in COASTING, doubled again out of REFERENCE, at most 8,000. -/
def wEff (w : Nat) (st : RecState) (clock : ClockState) : Nat :=
  min 8000 (w * (if st = .coasting then 2 else 1) * (if clock = .reference then 1 else 2))

/-- The difference of two sub-µs times as a signed value (R51). -/
def diff16 (t a : Time16) : Int := (t - a).toInt

/-- A16 + k × P16, modulo 2^36. -/
def OvenPart.startAt (o : OvenPart) (k : Int) : Time16 := o.a16 + BitVec.ofInt 36 (k * o.p16)

/-- What the phase match test finds (R54). -/
structure PhaseMatch where
  k : Int
  p16 : Time16
  e16 : Int
deriving DecidableEq, Repr

/-- R54 steps 1 to 4. -/
def OvenPart.phaseMatch (o : OvenPart) (s16 : Time16) : PhaseMatch :=
  let k := roundDivDown (diff16 s16 o.a16) o.p16
  { k := k, p16 := o.startAt k, e16 := diff16 s16 (o.startAt k) }

/-- R54 step 5. -/
def PhaseMatch.passes (m : PhaseMatch) (tolerance : Nat) : Bool :=
  decide (m.e16.natAbs ≤ tolerance * 16)

/-- R42: the start lies in the on-interval of the last predicted start at or before it. -/
def OvenPart.absorbs (o : OvenPart) (s16 : Time16) (tolerance : Nat) : Bool :=
  let x := diff16 s16 o.a16
  decide (x - x / o.p16 * o.p16 ≤ (o.d + tolerance) * 16)

/-- R57 to R60: the anchor, period and duration corrections, each from the values before the update; a
pinned oven holds its period. -/
def OvenPart.corrected (o : OvenPart) (m : PhaseMatch) (duration : Nat) (origin : Origin) :
    OvenPart :=
  { o with
    a16 := m.p16 + BitVec.ofInt 36 (truncDiv m.e16 4)
    p16 := if 1 ≤ m.k ∧ origin = .learned then clampP16 (o.p16 + truncDiv m.e16 (8 * m.k))
           else o.p16
    d := clampD (o.d + roundDiv ((duration : Int) - o.d) 8) }

/-- A hit is counted: hits, saturating, and the hit-this-epoch flag (R7). -/
def Record.countHit (r : Record) : Record := { r with hits := satInc255 r.hits, hitFlag := true }

/-- R46: the span union of a record's span with a report's. -/
def Span.unionWith (x report : Span) : Span :=
  let lo := min x.lo report.lo
  let hi := max x.hi report.hi
  if hi - lo ≤ 40 then { lo := lo, hi := hi }
  else if report.lo < x.lo then { lo := lo, hi := lo + 40 }
  else { lo := hi - 40, hi := hi }

/-- The outcomes of period acquisition (R63). -/
inductive Acquisition where
  | merge
  | period (p16 : Nat)
  | reanchor
deriving DecidableEq, Repr

/-- R63, by the interval alone. -/
def acquisitionOf (i : Int) : Acquisition :=
  if i < 16000 then .merge
  else if i ≤ 21000 then .period (i * 16).toNat
  else if i < 32000 then .reanchor
  else if i ≤ 42000 then .period (i * 8).toNat
  else if i < 48000 then .reanchor
  else if i ≤ 63000 then .period (roundDiv (i * 16) 3).toNat
  else .reanchor

/-- R62: the interval in microseconds; exact for an anchor that is a whole microsecond. -/
def OvenPart.intervalTo (o : OvenPart) (s16 : Time16) : Int := diff16 s16 o.a16 / 16

/-- R65: an anchor moves by whole periods to the last predicted start at or before the boundary. -/
def rebasedAnchor (a16 : Time16) (p16 : Nat) (now16 : Time16) : Time16 :=
  let m := diff16 now16 a16 / p16
  if 1 ≤ m then a16 + BitVec.ofInt 36 (m * p16) else a16

/-- The rebase of an oven (R65), with the P16 that stood before a commit of P which falls together with it and is
taken first (R66). An oven of unknown period or phase is passed over. -/
def OvenPart.rebased (o : OvenPart) (now16 : Time16) : OvenPart :=
  if o.periodKnown && o.phaseKnown then
    let a16 := rebasedAnchor o.a16 (o.stood.getD o.p16) now16
    { o with a16 := a16, former := some { before := o.a16, after := a16 }, stood := none }
  else { o with former := none, stood := none }

end Sys2Proof.Machine
end

