-- ==== Sys2Proof/Machine/Airtime.lean ====
section
/-! DEFINITION. Airtime and load (chapter 4): the airtime update, the share at the boundary, and the two
loads of a span. -/

namespace Sys2Proof.Machine

/-- The accumulator's limit (R72). -/
def accLimit : Nat := 100000

/-- R72, R73: the accumulator takes the duration, the level moves a quarter of the way. -/
def Airtime.hit (a : Airtime) (duration : Nat) (level : Int) : Airtime :=
  { a with acc := min accLimit (a.acc + duration), level := a.level + roundDiv (level - a.level) 4 }

/-- R74: the sample folds into the share by an eighth, and the accumulator starts again. -/
def Airtime.closed (a : Airtime) : Airtime :=
  let sample := min 255 (a.acc * 256 / accLimit)
  { a with share := ((a.share : Int) + roundDiv ((sample : Int) - a.share) 8).toNat, acc := 0 }

/-- The airtime fields of a NEIGHBOUR or STEADY record (R70). -/
def Part.airtime? : Part → Option Airtime
  | .oven _ => none
  | .neighbour _ _ a => some a
  | .steady a => some a

/-- A change of the airtime fields; an OVEN has none (R70). -/
def Part.mapAirtime (f : Airtime → Airtime) : Part → Part
  | .oven o => .oven o
  | .neighbour tag ch a => .neighbour tag ch (f a)
  | .steady a => .steady (f a)

/-- The level below which a record's share does not count (R77, R82). -/
def loadLevel : Int := -82

/-- A record's term in the network load of a span (R77). -/
def Record.networkTerm (r : Record) (span : Span) : Nat :=
  match r.part.airtime? with
  | some a =>
    if r.counted && r.span.overlaps span && decide (loadLevel ≤ a.level) then a.share else 0
  | none => 0

/-- R77. -/
def Table.networkLoad (t : Table) (span : Span) : Nat :=
  min 255 ((t.records.map (fun x => x.2.networkTerm span)).sum)

/-- R79: 256 × D × 16 / P16, rounded. -/
def OvenPart.duty (o : OvenPart) : Nat := (roundDiv (256 * o.d * 16) o.p16).toNat

/-- An OVEN record that the oven load and the predictor use for a span (R79, R93). -/
def Record.relevantOven (r : Record) (span : Span) : Option OvenPart :=
  match r.oven? with
  | some o =>
    if r.counted && o.periodKnown && o.phaseKnown && r.span.overlaps span then some o else none
  | none => none

/-- R79. -/
def Table.ovenLoad (t : Table) (span : Span) : Nat :=
  min 255 ((t.records.filterMap (fun x => (x.2.relevantOven span).map OvenPart.duty)).sum)

end Sys2Proof.Machine
end

