-- ==== Sys2Proof/Machine/Chains.lean ====
section
/-! DEFINITION. The Chain Controller (chapter 6): the checks and starts of moves, LOCK, the timers, and
the requests MOVE, STEP, SET CHANNEL, ABORT MOVE, SET TUNE CODE, SET AUTO, SET DOMAIN; and
AUTOMATIC_MOVE (R140). -/

namespace Sys2Proof.Machine

/-! ### Checks and starts (R113 to R115) -/

/-- A channel is in use by a chain: its present or its target channel. -/
def ChainRec.uses (c : ChainRec) (ch : Nat) : Bool := c.present == some ch || c.target == some ch

/-- The states in which a chain takes a request (R114 check 1). -/
def ChainState.takesRequest : ChainState → Bool
  | .unset | .ready | .fault => true
  | .retuning | .dwell => false

/-- R114: the first check that fails; none where all pass. `coded` asks for check 4. -/
def Radio.check (r : Radio) (c : Chain) (ch : Nat) (coded : Bool) : Option Result :=
  if (r.chain c).state.takesRequest = false then some .busy
  else if r.domain.permits ch = false then some .notPermitted
  else if (r.chain (otherChain c)).uses ch = true then some .conflict
  else if coded = true ∧ r.tuneCode ch = 0 then some .noTuneCode
  else none

/-- R111, R115: the chain enters RETUNING toward the channel, the code is driven, the strobe pulsed and
the lock timer started. -/
def State.startMove (s : State) (c : Chain) (ch : Nat) (origin : MoveOrigin) : State :=
  let x := s.chain c
  s.setChain c
    { x with
      state := .retuning, target := some ch, origin := origin,
      lockTimer := some (s.expiryAfter s.params.lockTimeout),
      tuneOut := s.radio.tuneCode ch, strobes := x.strobes + 1 }

/-- A channel byte of MOVE or SET CHANNEL: outside 1..14 is INVALID (R113). -/
def moveChannelOf (b : Byte) : Option Nat :=
  if 1 ≤ b.toNat ∧ b.toNat ≤ 14 then some b.toNat else none

/-! ### Requests that place a chain -/

/-- MOVE (R113 to R115). -/
def execMove (s : State) : Host.Outcome State Fault Refusal :=
  match s.request 0x20 with
  | some [chain, channel] =>
    match chainOf chain, moveChannelOf channel with
    | some c, some ch =>
      match s.radio.check c ch true with
      | some r => .next (s.answer r)
      | none => .next ((s.startMove c ch .control).answer .ok)
    | _, _ => .next (s.answer .invalid)
  | _ => .next s

/-- The result of a STEP: its result byte and its target channel (R116, R178). -/
def State.answerStep (s : State) (r : Result) (clamped : Bool) (target : Option Nat) : State :=
  s.finish [resultByte r clamped, channelByte target]

/-- STEP (R113, R116): the step is clamped to ±13 and the target to 1..h, each noted by the clamped
flag of an OK result. -/
def execStep (s : State) : Host.Outcome State Fault Refusal :=
  match s.request 0x21 with
  | some [chain, step] =>
    match chainOf chain with
    | none => .next (s.answerStep .invalid false none)
    | some c =>
      if (s.chain c).state.takesRequest = false then .next (s.answerStep .busy false none)
      else match (s.chain c).present with
        | none => .next (s.answerStep .notPermitted false none)
        | some p =>
          let asked := (p : Int) + clampInt (-13) 13 step.toInt
          let target := clampInt 1 s.radio.domain.highest asked
          let ch := target.toNat
          let clamped := step.toInt != clampInt (-13) 13 step.toInt || asked != target
          if ch = p then .next (s.answerStep .ok clamped (some ch))
          else match s.radio.check c ch true with
            | some r => .next (s.answerStep r false (some ch))
            | none => .next ((s.startMove c ch .control).answerStep .ok clamped (some ch))
  | _ => .next s

/-- SET CHANNEL (R113, R117): checks 1 to 3; the tune lines and LOCK play no part. -/
def execSetChannel (s : State) : Host.Outcome State Fault Refusal :=
  match s.request 0x22 with
  | some [chain, channel] =>
    match chainOf chain, moveChannelOf channel with
    | some c, some ch =>
      match s.radio.check c ch false with
      | some r => .next (s.answer r)
      | none =>
        .next ((s.setChain c { s.chain c with
          state := .ready, present := some ch, holdOff := 0, origin := .control }).answer .ok)
    | _, _ => .next (s.answer .invalid)
  | _ => .next s

/-- AUTOMATIC_MOVE (R140, R118): the controller takes the move handed over for the chain, checks it, and
starts it with origin ADVISOR if it passes; a refusal leaves the chain as it was. -/
def execAutomaticMove (c : Chain) (s : State) : Host.Outcome State Fault Refusal :=
  match (s.chain c).handed with
  | none => .next s
  | some ch =>
    let s' := s.setChain c { s.chain c with handed := none }
    match s'.radio.check c ch true with
    | some _ => .next s'
    | none => .next (s'.startMove c ch .advisor)

/-! ### LOCK, the timers and ABORT MOVE (R119 to R125) -/

/-- A move completes: READY, the dwell timer stopped, hold-off 0, MOVE_DONE raised (R119, R121,
R125, R130). -/
def State.completeMove (s : State) (c : Chain) (dwellCut : Bool) : State :=
  let x := s.chain c
  (s.setChain c { x with state := .ready, dwellTimer := none, holdOff := 0 }).raise
    .moveDone (.chain c) (.moveDone dwellCut x.origin)

/-- A move fails or lock is lost: FAULT, no channels, the timers stopped, MOVE_FAILED raised (R120,
R122, R130). -/
def State.failMove (s : State) (c : Chain) (cause : FailCause) : State :=
  let x := s.chain c
  (s.setChain c { x with state := .fault, present := none, target := none, lockTimer := none,
                         dwellTimer := none }).raise
    .moveFailed (.chain c) (.moveFailed cause x.origin)

/-- The line LOCK of a chain takes a level. -/
def State.setLock (s : State) (c : Chain) (level : Bool) : State :=
  s.setChain c { s.chain c with lockIn := level }

/-- R119: the completing assertion in RETUNING. DWELL_TIME is read here (R126). -/
def State.lockCompletes (s : State) (c : Chain) : State :=
  let x := s.chain c
  let y := { x with lockTimer := none, present := x.target, target := none }
  if s.params.dwellTime = 0 then (s.setChain c y).completeMove c false
  else s.setChain c { y with
    state := .dwell, dwellTimer := some (s.expiryAfter (s.params.dwellTime * 1000)) }

/-- LOCK_ASSERTED (R119, R123): a change of the input from deasserted to asserted, acted on in RETUNING
alone. A level already asserted is not taken as lock. -/
def execLockAsserted (c : Chain) (s : State) : Host.Outcome State Fault Refusal :=
  if (s.chain c).lockIn then .next s
  else
    let s' := s.setLock c true
    match (s.chain c).state with
    | .retuning => .next (s'.lockCompletes c)
    | .unset | .ready | .dwell | .fault => .next s'

/-- LOCK_DEASSERTED (R122, R123): a change of the input from asserted to deasserted; lock lost in READY or
DWELL, not acted on otherwise. -/
def execLockDeasserted (c : Chain) (s : State) : Host.Outcome State Fault Refusal :=
  if (s.chain c).lockIn then
    let s' := s.setLock c false
    match (s.chain c).state with
    | .ready | .dwell => .next (s'.failMove c .lockLost)
    | .unset | .retuning | .fault => .next s'
  else .next s

/-- LOCK_TIMER_EXPIRY (R120), for a chain whose lock timer runs in RETUNING. -/
def execLockTimerExpiry (c : Chain) (s : State) : Host.Outcome State Fault Refusal :=
  match (s.chain c).state, (s.chain c).lockTimer with
  | .retuning, some e => .next (s.atInstant (s.timebase.remaining e) (fun s => s.failMove c .noLock))
  | _, _ => .next s

/-- DWELL_TIMER_EXPIRY (R121), for a chain whose dwell timer runs in DWELL. -/
def execDwellTimerExpiry (c : Chain) (s : State) : Host.Outcome State Fault Refusal :=
  match (s.chain c).state, (s.chain c).dwellTimer with
  | .dwell, some e => .next (s.atInstant (s.timebase.remaining e) (fun s => s.completeMove c false))
  | _, _ => .next s

/-- ABORT MOVE (R125). -/
def execAbortMove (s : State) : Host.Outcome State Fault Refusal :=
  match s.request 0x23 with
  | some [chain] =>
    match chainOf chain with
    | none => .next (s.answer .invalid)
    | some c =>
      match (s.chain c).state with
      | .dwell => .next ((s.completeMove c true).answer .ok)
      | .retuning => .next (s.answer .busy)
      | .unset | .ready | .fault => .next (s.answer .idle)
  | _ => .next s

/-! ### Settings (R110, R112, R128) -/

/-- SET TUNE CODE (R110, R178). -/
def execSetTuneCode (s : State) : Host.Outcome State Fault Refusal :=
  match s.request 0x13 with
  | some [channel, hi, lo] =>
    match moveChannelOf channel with
    | none => .next (s.answer .invalid)
    | some ch =>
      let code := valueOf [hi, lo]
      if code = 0 ∧ (s.radio.chainA.uses ch || s.radio.chainB.uses ch) = true then
        .next (s.answer .notPermitted)
      else
        let held := min 4095 code
        .next (State.answerOk
          { s with radio :=
              { s.radio with tuneMap := s.radio.tuneMap.set (ch - 1) (BitVec.ofNat 12 held) } }
          (decide (4095 < code)) (bytesOf 2 held))
  | _ => .next s

/-- SET AUTO (R128). -/
def execSetAuto (s : State) : Host.Outcome State Fault Refusal :=
  match s.request 0x14 with
  | some [chain, onOff] =>
    match chainOf chain, onOffOf onOff with
    | some c, some on => .next ((s.setChain c { s.chain c with auto := on }).answer .ok)
    | _, _ => .next (s.answer .invalid)
  | _ => .next s

/-- SET DOMAIN (R112). -/
def execSetDomain (s : State) : Host.Outcome State Fault Refusal :=
  match s.request 0x10 with
  | some [domain] =>
    match domainOf domain with
    | none => .next (s.answer .invalid)
    | some d =>
      if s.radio.domainLock then .next (s.answer .locked)
      else .next (State.answer
        { s with radio := { s.radio with domain := d, domainLock := true } } .ok)
  | _ => .next s

end Sys2Proof.Machine
end

