-- ==== Sys2Proof/Machine/Advisor.lean ====
section
/-! DEFINITION. The Channel Advisor (chapter 7): MID_EPOCH and READ COSTS. -/

namespace Sys2Proof.Machine

/-- The channels 1 to 14. -/
def allChannels : List Nat := List.range' 1 14

/-- R134: the three figures of one channel; all 0 for a channel the domain does not permit. -/
def State.costOf (s : State) (ch : Nat) : CostRow :=
  if s.radio.domain.permits ch then
    let oven := s.table.ovenLoad (channelSpan ch)
    let network := s.table.networkLoad (channelSpan ch)
    { oven := oven, network := network, cost := min 255 (oven + network) }
  else { oven := 0, network := 0, cost := 0 }

/-- R134, R135: the 42 values of one costing. -/
def State.costed (s : State) : State :=
  { s with advisor := { s.advisor with costs := allChannels.map s.costOf, costed := true } }

/-- The cost of a channel at the last costing. -/
def Advisor.costAt (a : Advisor) (ch : Nat) : Nat :=
  (a.costs.getD (ch - 1) { oven := 0, network := 0, cost := 0 }).cost

/-- The distance of two channels by number (R137). -/
def channelDistance (a b : Nat) : Nat := (a - b) + (b - a)

/-- R137: the channels a chain may be advised to take. -/
def State.eligible (s : State) (c : Chain) : List Nat :=
  allChannels.filter (fun ch => s.radio.domain.permits ch && !(s.chain (otherChain c)).uses ch)

/-- R137: a candidate betters another by cost, then by distance from the present channel. -/
def Advisor.betterChannel (a : Advisor) (present x y : Nat) : Bool :=
  decide (a.costAt x < a.costAt y) ||
    (decide (a.costAt x = a.costAt y)
      && decide (channelDistance x present < channelDistance y present))

/-- R137: the best channel of a chain on a present channel; the lowest number where cost and distance
are equal. -/
def State.bestChannel (s : State) (c : Chain) (present : Nat) : Nat :=
  (firstBest (s.advisor.betterChannel present) (s.eligible c)).getD present

/-- The outcome of one chain's evaluation: its streak, and the best channel where the streak completes. -/
structure Evaluation where
  streak : Nat
  advised : Option Nat
  moves : Bool
deriving DecidableEq, Repr

/-- R136 to R139: one chain, against the costing just made. -/
def State.evaluateChain (s : State) (c : Chain) : Evaluation :=
  let x := s.chain c
  match x.state, x.present with
  | .ready, some p =>
    let best := s.bestChannel c p
    let streak :=
      if s.params.adviceMargin + s.advisor.costAt best ≤ s.advisor.costAt p then
        min 15 (x.streak + 1) else 0
    if s.params.advicePersist ≤ streak then
      { streak := 0, advised := some best,
        moves := x.auto && decide (s.params.autoHoldoff ≤ x.holdOff) }
    else { streak := streak, advised := none, moves := false }
  | _, _ => { streak := 0, advised := none, moves := false }

/-- R139: the acts of one evaluation. The streak and the last advised channel take their values, and a move is
handed to the controller where it is requested (R140). -/
def State.actOn (s : State) (c : Chain) (v : Evaluation) : State :=
  match v.advised with
  | none => s.setChain c { s.chain c with streak := v.streak }
  | some best =>
    let s := s.raise .advice (.chain c) (.advice best)
    s.setChain c
      { s.chain c with
        streak := v.streak, lastAdvised := some best
        handed := if v.moves then some best else (s.chain c).handed }

/-- The advisor's work (R134 to R139, R142): the costing, then both evaluations from one reading. The
order of the two acts is free (notes/assumptions/6.md). -/
def State.midEpochWork (s : State) : State :=
  let s := { s.costed with timebase := { s.timebase with midDue := false } }
  let a := s.evaluateChain .A
  let b := s.evaluateChain .B
  let bFirst := a.advised.isSome && b.advised.isSome && Config.adviceBFirst s.freeCount
  let s := { s with freeCount := s.freeCount + 1 }
  if bFirst then (s.actOn .B b).actOn .A a else (s.actOn .A a).actOn .B b

/-- MID_EPOCH (R134, R147): the epoch timer reaches 50,000, and the advisor does its work. -/
def execMidEpoch (s : State) : Host.Outcome State Fault Refusal :=
  .next (s.atInstant s.timebase.untilMidEpoch State.midEpochWork)

/-- A row of the cost table on the wire (12.2). -/
def CostRow.bytes (r : CostRow) : List Byte := [byteOf r.oven, byteOf r.network, byteOf r.cost]

/-- The advice fields of a chain on the wire (12.2). -/
def ChainRec.adviceBytes (c : ChainRec) : List Byte := [byteOf c.streak, channelByte c.lastAdvised]

/-- READ COSTS (R144). -/
def execReadCosts (s : State) : Host.Outcome State Fault Refusal :=
  match s.request 0x52 with
  | some _ =>
    .next (s.answerOk false
      ([flagByte s.advisor.costed] ++ s.advisor.costs.flatMap CostRow.bytes
        ++ s.radio.chainA.adviceBytes ++ s.radio.chainB.adviceBytes))
  | none => .next s

end Sys2Proof.Machine
end

