-- ==== Sys2Proof/Machine/Intake.lean ====
section
/-! DEFINITION. The burst intake (chapter 2, R29 to R38): REPORT_ARRIVAL, DETECTOR_FRAME_DISCARDED and
the DETECTOR READY line. -/

namespace Sys2Proof.Machine

/-- The queue's limit (R33). -/
def reportCapacity : Nat := 32

/-- R33, R34: a report joins the tail, or overflows. -/
def State.offerReport (s : State) (r : Report) : State :=
  if s.intake.queue.length < reportCapacity then
    { s with intake := { s.intake with queue := s.intake.queue ++ [r] } }
  else
    State.raise { s with intake := { s.intake with blindThrough := .next } } .intakeOverflow .none .none

/-- REPORT_ARRIVAL (R29 to R34, R209): the frame's report is stamped at the present time and offered to
the queue, unless R32 discards it. -/
def execReportArrival (frame : List Byte) (s : State) : Host.Outcome State Fault Refusal :=
  match (burstReportOf frame).bind (fun r => r.stamp s.now) with
  | some r => .next (s.offerReport r)
  | none => .next s

/-- DETECTOR_FRAME_DISCARDED (R209): as a report discarded at arrival, without effect. -/
def execDetectorFrameDiscarded (_bytes : List Byte) (s : State) : Host.Outcome State Fault Refusal :=
  .next s

/-- DETECTOR_READY_DEASSERTED (R35). -/
def execDetectorReadyDeasserted (s : State) : Host.Outcome State Fault Refusal :=
  .next { s with intake := { s.intake with detectorReady := false, notReadySeen := true } }

/-- DETECTOR_READY_ASSERTED (R35): not-ready-seen stays as it is. -/
def execDetectorReadyAsserted (s : State) : Host.Outcome State Fault Refusal :=
  .next { s with intake := { s.intake with detectorReady := true } }

/-- R36 steps 2 and 3. -/
def Intake.turnOver (k : Intake) : Intake :=
  { k with
    blindThrough := match k.blindThrough with
      | .next => .current
      | .current => .none
      | .none => .none
    notReadySeen := !k.detectorReady }

end Sys2Proof.Machine
end

