-- ==== Sys2Proof/Machine/Association.lean ====
section
/-! DEFINITION. The association engine (chapter 2, R39 to R50): TAKE_REPORT. -/

namespace Sys2Proof.Machine

/-! ### Swept reports (R41 to R45) -/

/-- R41: the live ovens of known period and phase that overlap the report. -/
def Table.rhythmic (t : Table) (span : Span) : List (Nat × Record × OvenPart) :=
  t.liveOvens.filter (fun x => x.2.2.periodKnown && x.2.2.phaseKnown && x.2.1.span.overlaps span)

/-- R41: of those that pass the phase match test, the one of smallest error; ties to the lower slot. -/
def Table.matched (t : Table) (rep : Report) (clock : ClockState) :
    Option (Nat × Record × OvenPart × PhaseMatch) :=
  firstBest (fun a b => decide (a.2.2.2.e16.natAbs < b.2.2.2.e16.natAbs))
    ((t.rhythmic rep.span).filterMap (fun x =>
      let m := x.2.2.phaseMatch (to16 rep.start)
      if m.passes (wEff x.2.2.w x.2.1.state clock) then some (x.1, x.2.1, x.2.2, m) else none))

/-- R56: the oven hit update of slot `i`, with its confirmation check. -/
def State.ovenHit (s : State) (i : Nat) (r : Record) (o : OvenPart) (m : PhaseMatch)
    (rep : Report) : State :=
  State.confirm
    (s.putRecord i
      { r.countHit with
        part := .oven (o.corrected m rep.duration r.origin), span := r.span.unionWith rep.span }) i

/-- R42. -/
def Table.absorbs (t : Table) (rep : Report) (clock : ClockState) : Bool :=
  (t.rhythmic rep.span).any
    (fun x => x.2.2.absorbs (to16 rep.start) (wEff x.2.2.w x.2.1.state clock))

/-- R43: the lowest pinned oven of unknown phase that overlaps the report. -/
def Table.phaseless (t : Table) (span : Span) : Option (Nat × Record × OvenPart) :=
  t.liveOvens.find? (fun x =>
    x.2.1.origin == .pinned && !x.2.2.phaseKnown && x.2.1.span.overlaps span)

/-- R43: phase acquisition. -/
def State.acquirePhase (s : State) (i : Nat) (r : Record) (o : OvenPart) (s16 : Time16) : State :=
  s.putRecord i { r.countHit with part := .oven { o with a16 := s16, phaseKnown := true } }

/-- R44: the oldest oven candidate of unknown period that overlaps the report. -/
def Table.periodless (t : Table) (span : Span) : Option (Nat × Record) :=
  t.oldest (t.liveRecords.filter (fun x =>
    x.2.state == .candidate && x.2.span.overlaps span
      && (x.2.oven?.map (fun o => !o.periodKnown)).getD false))

/-- R63: period acquisition of slot `i`. -/
def State.acquirePeriod (s : State) (i : Nat) (r : Record) (o : OvenPart) (s16 : Time16) : State :=
  match acquisitionOf (o.intervalTo s16) with
  | .merge => s
  | .period p =>
    State.confirm
      (s.putRecord i
        { r.countHit with part := .oven { o with periodKnown := true, p16 := p, a16 := s16 } }) i
  | .reanchor => s.putRecord i { r with part := .oven { o with a16 := s16 } }

/-- R45: the oven part of a new candidate. -/
def newOvenPart (rep : Report) (tolerance : Nat) : OvenPart :=
  { periodKnown := false, p16 := 0, phaseKnown := true, a16 := to16 rep.start,
    d := clampD rep.duration, w := clampW tolerance }

/-- R41 to R45, the first step that applies settles the report. -/
def State.applySwept (s : State) (rep : Report) (clock : ClockState) : State :=
  match s.table.matched rep clock with
  | some (i, r, o, m) => s.ovenHit i r o m rep
  | none =>
    if s.table.absorbs rep clock then s
    else match s.table.phaseless rep.span with
      | some (i, r, o) => s.acquirePhase i r o (to16 rep.start)
      | none =>
        match s.table.periodless rep.span with
        | some (i, r) =>
          match r.oven? with
          | some o => s.acquirePeriod i r o (to16 rep.start)
          | none => s
        | none => s.create rep.span (.oven (newOvenPart rep s.params.ovenTolerance))

/-! ### Preamble and steady reports (R47 to R50, R71) -/

/-- R71: the airtime update of slot `i`, whose record is `r`. -/
def State.airtimeHit (s : State) (i : Nat) (r : Record) (rep : Report) : State :=
  State.confirm
    (s.putRecord i { r.countHit with part := r.part.mapAirtime (·.hit rep.duration rep.level) }) i

/-- R47: (centre − 7)/5, rounded, clamped to 1..14. -/
def derivedChannel (centre : Nat) : Nat := (clampInt 1 14 (roundDiv ((centre : Int) - 7) 5)).toNat

/-- The airtime fields of a new candidate (R48, R50). -/
def newAirtime (rep : Report) : Airtime := { share := 0, acc := rep.duration, level := rep.level }

/-- R47: the lowest live NEIGHBOUR of the tag and the channel. -/
def Table.neighbour (t : Table) (tag : BitVec 16) (ch : Nat) : Option (Nat × Record) :=
  t.liveRecords.find? (fun x =>
    match x.2.part with
    | .neighbour tag' ch' _ => tag' == tag && ch' == ch
    | _ => false)

/-- R47, R48. -/
def State.applyPreamble (s : State) (rep : Report) (tag : BitVec 16) : State :=
  let ch := derivedChannel rep.centre
  match s.table.neighbour tag ch with
  | some (i, r) => s.airtimeHit i r rep
  | none => s.create (channelSpan ch) (.neighbour tag ch (newAirtime rep))

/-- R49: the live STEADY record of widest overlap; ties to the lower slot. -/
def Table.steadyFor (t : Table) (span : Span) : Option (Nat × Record) :=
  firstBest (fun a b => decide (b.2.span.overlapWidth span < a.2.span.overlapWidth span))
    (t.liveRecords.filter (fun x => x.2.kind == .steady && x.2.span.overlaps span))

/-- R49, R50: the span union comes before the airtime update. -/
def State.applySteady (s : State) (rep : Report) : State :=
  match s.table.steadyFor rep.span with
  | some (i, r) => s.airtimeHit i { r with span := r.span.unionWith rep.span } rep
  | none => s.create rep.span (.steady (newAirtime rep))

/-! ### The engine (R39) -/

/-- The decision order of a report's signature (R39). -/
def State.applyReport (s : State) (rep : Report) (clock : ClockState) : State :=
  match rep.signature with
  | .swept => s.applySwept rep clock
  | .preamble tag => s.applyPreamble rep tag
  | .steady => s.applySteady rep

/-- TAKE_REPORT (R39, R40): in WAITING with an entry queued, the engine takes the head entry, reads the
clock state, and applies the report whole; it is WAITING again at the end of the step. -/
def execTakeReport (s : State) : Host.Outcome State Fault Refusal :=
  match s.intake.engine, s.intake.queue with
  | .waiting, rep :: rest =>
    .next (State.applyReport { s with intake := { s.intake with queue := rest } } rep s.timebase.clock)
  | _, _ => .next s

end Sys2Proof.Machine
end

