-- ==== Sys2Proof/Machine/Boundary.lean ====
section
/-! DEFINITION. The epoch boundary (R147): blind turnover, aging, rebase, share update and hold-off. -/

namespace Sys2Proof.Machine

/-- The orders that the manual leaves open at one boundary on a held record that leaves the live states
(R23, R66). -/
structure BoundaryOrder where
  airtimeFirst : Bool
  rebaseFirst : Bool
deriving DecidableEq, Repr

/-- The rebase (R65) and the share update (R74) on a part. -/
def Part.closed (now16 : Time16) : Part → Part
  | .oven o => .oven (o.rebased now16)
  | .neighbour tag ch a => .neighbour tag ch a.closed
  | .steady a => .steady a.closed

/-- The part a held record keeps when aging retires it: as the open order has it (R23, R66). -/
def Part.atRetirement (order : BoundaryOrder) (now16 : Time16) (p : Part) : Part :=
  match p with
  | .oven _ => if order.rebaseFirst then p.closed now16 else p
  | .neighbour _ _ _ | .steady _ => if order.airtimeFirst then p.closed now16 else p

/-- One slot's boundary work, with the notice that aging raises for it. FREE and RETIRED slots are
passed over (R17, R65, R74). -/
def Slot.atBoundary (p : Params) (blind : Bool) (now16 : Time16) (order : BoundaryOrder) (x : Slot) :
    Slot × Option NoticeKind :=
  match x.record with
  | none => (x, none)
  | some r =>
    if r.state = .retired then (x, none)
    else match r.aged p blind with
      | .stays r' => ({ x with record := some { r' with part := r.part.closed now16 } }, none)
      | .leaves r' n =>
        (Slot.retire { x with record := some { r' with part := r.part.atRetirement order now16 } }, n)

/-- A retirement notice of a boundary: the slot, the kind, and the handle before retirement (R20). -/
structure AgingNotice where
  slot : Nat
  kind : NoticeKind
  gen : BitVec 4
deriving DecidableEq, Repr

/-- The retirement notices of a boundary, lowest slot first. -/
def Table.agingNotices (t : Table) (f : Slot → Option NoticeKind) : List AgingNotice :=
  t.slots.zipIdx.filterMap (fun x => (f x.1).map (fun k => { slot := x.2, kind := k, gen := x.1.gen }))

/-- Insert by rank, before the first of an equal or higher rank. -/
def insertByRank (rank : Nat → Nat) (n : AgingNotice) : List AgingNotice → List AgingNotice
  | [] => [n]
  | m :: ms => if rank n.slot ≤ rank m.slot then n :: m :: ms else m :: insertByRank rank n ms

/-- The notices of a boundary in the order of the free ranks (notes/assumptions/5.md). -/
def rankNotices (rank : Nat → Nat) (l : List AgingNotice) : List AgingNotice :=
  l.foldr (insertByRank rank) []

/-- R127: the hold-off of a chain, saturating at 255. -/
def ChainRec.countEpoch (c : ChainRec) : ChainRec := { c with holdOff := satInc255 c.holdOff }

/-- The work of the boundary, at its instant (R36, R17 to R21, R65, R74, R127). -/
def State.boundaryWork (s : State) : State :=
  let order : BoundaryOrder :=
    { airtimeFirst := Config.airtimeFirst s.freeCount, rebaseFirst := Config.rebaseFirst s.freeCount }
  let work := Slot.atBoundary s.params s.intake.blindFlag (to16 s.now) order
  let notices := rankNotices (Config.agingRank s.freeCount)
    (s.table.agingNotices (fun x => (work x).2))
  notices.foldl (fun acc n => acc.raise n.kind (.handle n.slot n.gen) .none)
    { s with
      timebase := { s.timebase with boundaryDue := false }
      table := s.table.mapSlots (fun x => (work x).1)
      intake := s.intake.turnOver
      radio := { s.radio with chainA := s.radio.chainA.countEpoch, chainB := s.radio.chainB.countEpoch }
      freeCount := s.freeCount + 1 }

/-- EPOCH_BOUNDARY (R147): the epoch timer reaches 100,000 and restarts, and every block does its boundary
work. -/
def execEpochBoundary (s : State) : Host.Outcome State Fault Refusal :=
  .next (s.atInstant s.timebase.untilBoundary State.boundaryWork)

end Sys2Proof.Machine
end

