-- ==== Sys2Proof/Machine/CursorOps.lean ====
section
/-! DEFINITION. The record cursor and the requests on records (chapter 10, R180 to R191): OPEN, READ,
EDIT, CLOSE, NEXT, PIN, SET ORIGIN and RETIRE. -/

namespace Sys2Proof.Machine

/-! ### The record image (R182, 12.3) -/

/-- Bytes 9 to 20 of the image. The anchor is shown in whole microseconds, 0 while the phase is
unknown. Bits 7 to 2 of an OVEN's byte 9 read 0 (notes/assumptions/32.md). -/
def Part.imageBytes : Part → List Byte
  | .oven o =>
    [byteOf ((if o.periodKnown then 1 else 0) + (if o.phaseKnown then 2 else 0))]
      ++ bytesOf 3 o.p16 ++ bytesOf 4 (if o.phaseKnown then o.a16.toNat / 16 else 0)
      ++ bytesOf 2 o.d ++ bytesOf 2 o.w
  | .neighbour tag ch a =>
    bytesOf 2 tag.toNat ++ [byteOf ch, byteOf a.share] ++ bytesOf 3 a.acc
      ++ [BitVec.ofInt 8 a.level] ++ List.replicate 4 0
  | .steady a =>
    [byteOf a.share] ++ bytesOf 3 a.acc ++ [BitVec.ofInt 8 a.level] ++ List.replicate 7 0

/-- Byte 2 of the image; bits 7 to 3 read 0 (notes/assumptions/32.md). -/
def Record.flagBits (r : Record) : Byte :=
  byteOf ((if r.origin = .pinned then 1 else 0) + (if r.held then 2 else 0)
    + (if r.hitFlag then 4 else 0))

/-- The image of a record, 21 bytes (12.3). -/
def Record.image (r : Record) : List Byte :=
  [r.kind.code, r.state.code, r.flagBits, byteOf r.span.lo, byteOf r.span.hi, byteOf r.hits,
    byteOf r.idle, byteOf r.emptyStreak, byteOf r.age] ++ r.part.imageBytes

/-- The image of slot `i`. The cursor never holds a FREE slot; for one, every byte reads 0. -/
def Table.image (t : Table) (i : Nat) : List Byte :=
  match t.record i with
  | some r => r.image
  | none => List.replicate 21 0

/-! ### Holding and releasing (R180, R181) -/

/-- Nothing staged. -/
def Staged.empty : Staged :=
  { spanLow := none, spanHigh := none, p := none, d := none, w := none, channel := none, tag := none }

/-- The held field of slot `i` (R7). -/
def State.setHeld (s : State) (i : Nat) (held : Bool) : State :=
  match s.table.record i with
  | some r => s.putRecord i { r with held := held }
  | none => s

/-- The record that the cursor holds. -/
def State.heldRecord (s : State) : Option Record :=
  match s.cursor with
  | some c => s.table.record c.slot
  | none => none

/-- The cursor holds a record in RETIRED (R181 step 2). -/
def State.holdsRetired (s : State) : Bool :=
  match s.heldRecord with
  | some r => r.state == .retired
  | none => false

/-- The held record is let go live, and the cursor is closed. -/
def State.letGo (s : State) : State :=
  match s.cursor with
  | some c => { s.setHeld c.slot false with cursor := none }
  | none => s

/-- The cursor holds slot `i`, with nothing staged (R181 step 3). -/
def State.hold (s : State) (i : Nat) : State :=
  { s.setHeld i true with
    cursor := some { slot := i, gen := (s.table.slot i).gen, staged := Staged.empty } }

/-- The handle and the image of the record that the cursor holds. -/
def State.cursorBytes (s : State) (i : Nat) : List Byte :=
  handleBytes i (s.table.slot i).gen ++ s.table.image i

/-- OPEN (R181). -/
def execOpenRecord (s : State) : Host.Outcome State Fault Refusal :=
  match s.request 0x40 with
  | some [h1, h0] =>
    match s.table.resolve (valueOf [h1, h0]) with
    | .refused r => .next (s.answer r)
    | .record i _ =>
      if s.holdsRetired then .next (s.answer .gone)
      else
        let s' := s.letGo.hold i
        .next (s'.answerOk false (flagByte s.cursor.isSome :: s'.cursorBytes i))
  | _ => .next s

/-- The staged mask: bit n − 1 for EDIT field n (12.2); bit 7 reads 0 (notes/assumptions/32.md). -/
def Staged.mask (g : Staged) : Byte :=
  byteOf ((if g.spanLow.isSome then 1 else 0) + (if g.spanHigh.isSome then 2 else 0)
    + (if g.p.isSome then 4 else 0) + (if g.d.isSome then 8 else 0) + (if g.w.isSome then 16 else 0)
    + (if g.channel.isSome then 32 else 0) + (if g.tag.isSome then 64 else 0))

/-- READ (R182): the live record, with the staged mask; nothing changes. -/
def execReadRecord (s : State) : Host.Outcome State Fault Refusal :=
  match s.request 0x41 with
  | some _ =>
    match s.cursor with
    | none => .next (s.answer .notOpen)
    | some c =>
      .next (s.answerOk false
        (handleBytes c.slot c.gen ++ c.staged.mask :: s.table.image c.slot))
  | none => .next s

/-! ### Staging (R183) -/

/-- The range of a staged value (R183). -/
def EditField.range : EditField → Nat × Nat
  | .spanLow | .spanHigh => (0, 100)
  | .p => (256000, 336000)
  | .d => (1000, 15000)
  | .w => (250, 4000)
  | .channel => (1, 14)
  | .tag => (0, 65535)

/-- The kinds that have a field (R183). -/
def EditField.belongs : EditField → Kind → Bool
  | .spanLow, .oven | .spanHigh, .oven | .spanLow, .steady | .spanHigh, .steady => true
  | .p, .oven | .d, .oven | .w, .oven => true
  | .channel, .neighbour | .tag, .neighbour => true
  | _, _ => false

/-- A field takes a staged value; a second EDIT replaces it (R180). -/
def Staged.stage (g : Staged) (f : EditField) (v : Nat) : Staged :=
  match f with
  | .spanLow => { g with spanLow := some v }
  | .spanHigh => { g with spanHigh := some v }
  | .p => { g with p := some v }
  | .d => { g with d := some v }
  | .w => { g with w := some v }
  | .channel => { g with channel := some v }
  | .tag => { g with tag := some v }

/-- EDIT (R183): the value is clamped and staged; the live record is not touched. -/
def execEditField (s : State) : Host.Outcome State Fault Refusal :=
  match s.request 0x42 with
  | some [field, v2, v1, v0] =>
    match editFieldOf field with
    | none => .next (s.answer .invalid)
    | some f =>
      match s.cursor with
      | none => .next (s.answer .notOpen)
      | some c =>
        if (s.heldRecord.map (fun r => f.belongs r.kind)).getD false = false then
          .next (s.answer .invalid)
        else
          let v := valueOf [v2, v1, v0]
          let kept := clampNat f.range.1 f.range.2 v
          .next (State.answerOk { s with cursor := some { c with staged := c.staged.stage f kept } }
            (decide (kept ≠ v)) (bytesOf 3 kept))
  | _ => .next s

/-! ### Committing (R185, R186) -/

/-- The committed span of R185: none where the commit is refused, otherwise the span and whether it was
reduced to a width of 40. -/
def Span.committed (x : Span) (lo hi : Option Nat) : Option (Span × Bool) :=
  let l := lo.getD x.lo
  let h := hi.getD x.hi
  if lo.isNone && hi.isNone then some (x, false)
  else if h < l then none
  else if h - l ≤ 40 then some ({ lo := l, hi := h }, false)
  else if lo.isNone then some ({ lo := h - 40, hi := h }, true)
  else some ({ lo := l, hi := l + 40 }, true)

/-- R186, R67, R68: the oven part after a commit. -/
def OvenPart.committed (o : OvenPart) (g : Staged) : OvenPart :=
  { o with
    periodKnown := o.periodKnown || g.p.isSome
    p16 := (g.p.map (fun v => clampP16 v)).getD o.p16
    d := (g.d.map (fun v => clampD v)).getD o.d
    w := (g.w.map (fun v => clampW v)).getD o.w }

/-- R185, R186: the record after a commit, and whether the commit's result carries the clamped flag;
none where the commit is refused INVALID. A NEIGHBOUR's span follows its channel (R8). -/
def Record.committed (r : Record) (g : Staged) : Option (Record × Bool) :=
  match r.part with
  | .oven o =>
    (r.span.committed g.spanLow g.spanHigh).map
      (fun x => ({ r with span := x.1, part := .oven (o.committed g) }, x.2))
  | .steady _ =>
    (r.span.committed g.spanLow g.spanHigh).map (fun x => ({ r with span := x.1 }, x.2))
  | .neighbour tag ch a =>
    some ({ r with
      span := (g.channel.map channelSpan).getD r.span
      part := .neighbour ((g.tag.map (BitVec.ofNat 16)).getD tag) (g.channel.getD ch) a }, false)

/-- R66: a commit of P that falls together with the rebase of an oven whose period was known. Where the boundary's
work is still to come, the rebase will use the old P16; where it was taken at this instant and the anchor is still as
it left it, m and the advance are those of the new P16 (notes/assumptions/31.md). -/
def OvenPart.meetsRebase (o new : OvenPart) (b : Timebase) : OvenPart :=
  if b.boundaryDue then { new with stood := some (o.stood.getD o.p16) }
  else match o.former with
    | some x =>
      if b.epochTimer = 0 ∧ o.phaseKnown = true ∧ o.a16 = x.after then
        let a16 := rebasedAnchor x.before new.p16 (to16 b.time)
        { new with a16 := a16, former := some { x with after := a16 } }
      else new
    | none => new

/-- The committed record `q` of `r` as the commit leaves it: its outcomes with a rebase are R66's (R186). -/
def State.meetsRebase (s : State) (r : Record) (g : Staged) (q : Record) : Record :=
  match r.part, q.part with
  | .oven o, .oven new =>
    if g.p.isSome && o.periodKnown then { q with part := .oven (o.meetsRebase new s.timebase) } else q
  | _, _ => q

/-- A commit makes the period of a record known (R186). -/
def Record.learnsPeriod (r : Record) (g : Staged) : Bool :=
  match r.oven? with
  | some o => !o.periodKnown && g.p.isSome
  | none => false

/-- What the closing of a held record comes to (R184, R187). -/
structure Closing where
  state : State
  status : Result
  clamped : Bool
deriving DecidableEq, Repr

/-- A held record in RETIRED is freed, and the cursor closed (R23, R184). -/
def State.releaseGone (s : State) (c : Cursor) : State :=
  { s with table := s.table.release c.slot, cursor := none }

/-- CLOSE COMMIT on the held record (R184 to R186). An INVALID leaves everything as it was. -/
def State.closeCommit (s : State) (c : Cursor) : Closing :=
  match s.table.record c.slot with
  | none => { state := { s with cursor := none }, status := .gone, clamped := false }
  | some r =>
    if r.state = .retired then { state := s.releaseGone c, status := .gone, clamped := false }
    else match r.committed c.staged with
      | none => { state := s, status := .invalid, clamped := false }
      | some (r', clamped) =>
        let s' := s.putRecord c.slot (s.meetsRebase r c.staged r')
        let s' := if r.learnsPeriod c.staged then s'.confirm c.slot else s'
        { state := s'.letGo, status := .ok, clamped := clamped }

/-- CLOSE DISCARD on the held record (R184). -/
def State.closeDiscard (s : State) (c : Cursor) : Closing :=
  if s.holdsRetired then { state := s.releaseGone c, status := .gone, clamped := false }
  else { state := s.letGo, status := .ok, clamped := false }

/-- CLOSE (R184). -/
def execCloseRecord (s : State) : Host.Outcome State Fault Refusal :=
  match s.request 0x43 with
  | some [mode] =>
    match onOffOf mode, s.cursor with
    | none, _ => .next (s.answer .invalid)
    | some _, none => .next (s.answer .notOpen)
    | some commit, some c =>
      let x := if commit then s.closeCommit c else s.closeDiscard c
      .next (x.state.finish [resultByte x.status x.clamped])
  | _ => .next s

/-! ### Walking the table (R187) -/

/-- The slots in the order that NEXT examines them: after the slot released, round to it; from slot 0
where none was held (R187 step 2). -/
def nextOrder (held : Option Nat) : List Nat :=
  match held with
  | none => List.range 64
  | some i => (List.range' (i + 1) 64).map (· % 64)

/-- The first live slot in an order. -/
def Table.firstLive (t : Table) (order : List Nat) : Option Nat :=
  order.find? (fun i => ((t.record i).map Record.live).getD false)

/-- R187 steps 2 and 3, after the release with its commit status. -/
def State.openNext (s : State) (held : Option Nat) (status : Byte) : State :=
  match s.table.firstLive (nextOrder held) with
  | some i =>
    let s' := s.hold i
    s'.answerOk false (status :: s'.cursorBytes i)
  | none => s.finish [resultByte .empty false, status]

/-- NEXT (R187). -/
def execNextRecord (s : State) : Host.Outcome State Fault Refusal :=
  match s.request 0x44 with
  | some _ =>
    match s.cursor with
    | none => .next (s.openNext none (resultByte .notOpen false))
    | some c =>
      let x := s.closeCommit c
      if x.status = .invalid then .next (s.answer .invalid)
      else .next (x.state.openNext (some c.slot) (resultByte x.status x.clamped))
  | none => .next s

/-! ### PIN (R189, R25) -/

/-- A value that the host gave, as it is kept, with whether it was clamped. -/
structure Given where
  value : Nat
  clamped : Bool
deriving DecidableEq, Repr

def givenIn (lo hi v : Nat) : Given :=
  { value := clampNat lo hi v, clamped := decide (clampNat lo hi v ≠ v) }

/-- An optional value of PIN: 0xFFFF is absent (R189). -/
def givenOr (absent lo hi v : Nat) : Given :=
  if v = 0xFFFF then { value := absent, clamped := false } else givenIn lo hi v

/-- The span of a PIN: clamped to the band, refused with its edges crossed, reduced to a width of 40 from
the high edge (R189). -/
def pinSpan (lo hi : Nat) : Option (Span × Bool) :=
  let l := givenIn 0 100 lo
  let h := givenIn 0 100 hi
  if h.value < l.value then none
  else if h.value - l.value ≤ 40 then
    some ({ lo := l.value, hi := h.value }, l.clamped || h.clamped)
  else some ({ lo := l.value, hi := l.value + 40 }, true)

/-- The parameters of a PIN as its thirteen bytes give them (R189, 12.2). -/
structure PinRequest where
  kind : Byte
  spanLow : Nat
  spanHigh : Nat
  period : Nat
  d : Nat
  w : Nat
  channel : Byte
  tag : BitVec 16
deriving DecidableEq, Repr

def pinRequestOf : List Byte → Option PinRequest
  | [kind, lo, hi, p2, p1, p0, d1, d0, w1, w0, channel, t1, t0] =>
    some { kind := kind, spanLow := lo.toNat, spanHigh := hi.toNat, period := valueOf [p2, p1, p0],
           d := valueOf [d1, d0], w := valueOf [w1, w0], channel := channel,
           tag := BitVec.ofNat 16 (valueOf [t1, t0]) }
  | _ => none

/-- The record that a PIN installs, with whether a value of its kind was clamped; none where a parameter
is INVALID (R25, R189). -/
def PinRequest.record (q : PinRequest) (tolerance : Nat) : Option (Record × Bool) :=
  match kindOf q.kind with
  | none => none
  | some .oven =>
    (pinSpan q.spanLow q.spanHigh).map (fun x =>
      let p := givenIn 256000 336000 q.period
      let d := givenOr (p.value / 32) 1000 15000 q.d
      let w := givenOr tolerance 250 4000 q.w
      (pinnedRecord x.1 (.oven { periodKnown := true, p16 := p.value, phaseKnown := false, a16 := 0,
                                 d := d.value, w := clampW w.value }),
        x.2 || p.clamped || d.clamped || w.clamped))
  | some .steady =>
    (pinSpan q.spanLow q.spanHigh).map (fun x =>
      (pinnedRecord x.1 (.steady { share := 0, acc := 0, level := -100 }), x.2))
  | some .neighbour =>
    if 1 ≤ q.channel.toNat ∧ q.channel.toNat ≤ 14 then
      some (pinnedRecord (channelSpan q.channel.toNat)
        (.neighbour q.tag q.channel.toNat { share := 0, acc := 0, level := -100 }), false)
    else none

/-- At most this many records are pinned (R6). -/
def pinnedCapacity : Nat := 16

/-- PIN (R189, R25): INVALID, then FULL at 16 pinned, then FULL without a slot. -/
def execPin (s : State) : Host.Outcome State Fault Refusal :=
  match (s.request 0x30).bind pinRequestOf with
  | none => .next s
  | some q =>
    match q.record s.params.ovenTolerance with
    | none => .next (s.answer .invalid)
    | some (r, clamped) =>
      if pinnedCapacity ≤ s.table.pinned then .next (s.answer .full)
      else match s.table.takeSlot with
        | none => .next (s.answer .full)
        | some (i, t) =>
          .next (State.answerOk { s with table := t.enter i r } clamped
            (handleBytes i (t.slot i).gen))

/-! ### SET ORIGIN and RETIRE (R190, R191) -/

/-- The state and origin that an OK of SET ORIGIN returns (R190). -/
def State.originBytes (s : State) (i : Nat) : List Byte :=
  match s.table.record i with
  | some r => [r.state.code, r.origin.code]
  | none => [0, 0]

/-- R26: SET ORIGIN to PINNED on a resolved record; the refusal, or the state after it. -/
def State.pinRecord (s : State) (i : Nat) (r : Record) : Except Result State :=
  if r.origin = .pinned then .ok s
  else if pinnedCapacity ≤ s.table.pinned then .error .full
  else if r.state = .candidate ∧ s.params.confirms r = false then .error .notPermitted
  else .ok ((s.confirm i).putRecord i
    { (if r.state = .candidate then r.confirmed else r) with origin := .pinned })

/-- R27: SET ORIGIN to LEARNED on a resolved record. -/
def State.unpinRecord (s : State) (i : Nat) (r : Record) : State :=
  if r.origin = .learned then s else s.putRecord i { r with origin := .learned }

/-- SET ORIGIN (R190): the origin code, then the handle, then R26 or R27. -/
def execSetOrigin (s : State) : Host.Outcome State Fault Refusal :=
  match s.request 0x31 with
  | some [h1, h0, origin] =>
    match originOf origin with
    | none => .next (s.answer .invalid)
    | some goal =>
      match s.table.resolve (valueOf [h1, h0]) with
      | .refused r => .next (s.answer r)
      | .record i r =>
        match (if goal = .pinned then s.pinRecord i r else .ok (s.unpinRecord i r)) with
        | .error e => .next (s.answer e)
        | .ok s' => .next (s'.answerOk false (s'.originBytes i))
  | _ => .next s

/-- RETIRE (R191, R22): without notice; the kept flag tells a record that has entered RETIRED. -/
def execRetire (s : State) : Host.Outcome State Fault Refusal :=
  match s.request 0x32 with
  | some [h1, h0] =>
    match s.table.resolve (valueOf [h1, h0]) with
    | .refused r => .next (s.answer r)
    | .record i r =>
      .next (State.answerOk { s with table := s.table.replace i (s.table.slot i).retire } false
        [flagByte r.held])
  | _ => .next s

end Sys2Proof.Machine
end

