-- ==== Sys2Proof/Machine/Predictor.lean ====
section
/-! DEFINITION. The Window Predictor (chapter 5): QUERY_ARRIVAL, SCHEDULER_FRAME_DISCARDED,
EVALUATION_START, DELIVERY, ANSWER_FRAME_SENT and PREVIEW. -/

namespace Sys2Proof.Machine

/-! ### The queue and the answers (R83 to R87, R210) -/

/-- The queue's limit (R85). -/
def queryCapacity : Nat := 4

/-- A REFUSED answer (R87). -/
def refusedAnswer (tag : Byte) : Answer :=
  { tag := tag, status := .refused, startOffset := 0, freeLength := 0, grade := 0 }

/-- An answer leaves the part: it takes its place behind those that wait for the lines (R87, R210). -/
def Predictor.leave (p : Predictor) (a : Answer) : Predictor := { p with answers := p.answers ++ [a] }

/-- SCHEDULER_FRAME_DISCARDED (R210): discarded without an answer. -/
def execSchedulerFrameDiscarded (_bytes : List Byte) (s : State) : Host.Outcome State Fault Refusal :=
  .next s

/-- ANSWER_FRAME_SENT (R210): the oldest waiting answer goes out on the answer lines. -/
def execAnswerFrameSent (s : State) : Host.Outcome State Fault Refusal :=
  match s.predictor.answers with
  | a :: rest =>
    .next { s with predictor := { s.predictor with answers := rest, answerLines := a.frame } }
  | [] => .next s

/-! ### The snapshot (R91 to R93) -/

/-- At most this many relevant ovens enter a snapshot (R93). -/
def ovenCapacity : Nat := 8

/-- The relevant ovens of a span with their slots, lowest slot first (R93). -/
def Table.relevantOvens (t : Table) (span : Span) : List (Nat × Record × OvenPart) :=
  t.records.filterMap (fun x => (x.2.relevantOven span).map (fun o => (x.1, x.2, o)))

/-- Insert an oven before the first of fewer hits, so that equal hits keep slot order. -/
def insertByHits (x : Nat × Record × OvenPart) :
    List (Nat × Record × OvenPart) → List (Nat × Record × OvenPart)
  | [] => [x]
  | y :: ys => if y.2.1.hits ≤ x.2.1.hits then x :: y :: ys else y :: insertByHits x ys

/-- The ovens that are kept: all where they are at most eight, otherwise the eight of most hits, the
lower slot preferred among equal hits (R93). -/
def keptOvens (l : List (Nat × Record × OvenPart)) : List (Nat × Record × OvenPart) :=
  if l.length ≤ ovenCapacity then l else (l.foldr insertByHits []).take ovenCapacity

/-- The snapshot of a chain (R91): without a present channel the table items are not taken. -/
def State.snapshot (s : State) (c : Chain) : Snapshot :=
  let x := s.chain c
  let base : Snapshot :=
    { chain := c, state := x.state, present := x.present, clock := s.timebase.clock, ovens := [],
      leftOut := 0, load := 0, guardTime := s.params.guardTime }
  match x.present with
  | none => base
  | some ch =>
    let relevant := s.table.relevantOvens (channelSpan ch)
    { base with
      ovens := (keptOvens relevant).map (fun y =>
        { a16 := y.2.2.a16, p16 := y.2.2.p16, d := y.2.2.d,
          wEff := wEff y.2.2.w y.2.1.state s.timebase.clock })
      leftOut := relevant.length - ovenCapacity
      load := s.table.networkLoad (channelSpan ch) }

/-! ### Forbidden intervals and the search (R95 to R99)

Times are positions relative to t0 (R96). The position of the predicted start k of an oven, in sub-µs
units, is the position of its anchor plus k periods (notes/assumptions/10.md). -/

/-- The position of an oven's anchor relative to t0, in sub-µs units. -/
def SnapOven.anchorPos (o : SnapOven) (t0 : Time) : Int := diff16 o.a16 (to16 t0)

/-- The lower edge of the forbidden interval k, included (R95). -/
def SnapOven.lower (o : SnapOven) (t0 : Time) (g : Nat) (k : Int) : Int :=
  (o.anchorPos t0 + k * o.p16) / 16 - o.wEff - g

/-- The upper edge of the forbidden interval k, excluded (R95). -/
def SnapOven.upper (o : SnapOven) (t0 : Time) (g : Nat) (k : Int) : Int :=
  ceilDiv (o.anchorPos t0 + k * o.p16) 16 + o.d + o.wEff + g

/-- The greatest k whose lower edge lies before a position. -/
def SnapOven.lastBefore (o : SnapOven) (t0 : Time) (g : Nat) (pos : Int) : Int :=
  (16 * (pos + o.wEff + g) - o.anchorPos t0 - 1) / o.p16

/-- R97 step 3 for one oven: the latest upper edge among its intervals that overlap [t, t + d), none
where none overlaps. -/
def SnapOven.blocks (o : SnapOven) (t0 : Time) (g : Nat) (t : Int) (d : Nat) : Option Int :=
  let u := o.upper t0 g (o.lastBefore t0 g (t + d))
  if t < u then some u else none

/-- R97 step 3: the latest upper edge among all intervals that overlap [t, t + d). -/
def Snapshot.blocked (n : Snapshot) (t0 : Time) (t : Int) (d : Nat) : Option Int :=
  (n.ovens.filterMap (fun o => o.blocks t0 n.guardTime t d)).max?

/-- R97: the position of the window found, none for NONE. Each pass moves t later, so `h + 1` passes
are enough. -/
def Snapshot.search (n : Snapshot) (t0 : Time) (d h : Nat) : Nat → Int → Option Int
  | 0, _ => none
  | fuel + 1, t =>
    if (h : Int) < t + d then none
    else match n.blocked t0 t d with
      | some u => n.search t0 d h fuel u
      | none => some t

/-- R99: the earliest lower edge at or after t + d, or the horizon if that comes first. -/
def Snapshot.freeEnd (n : Snapshot) (t0 : Time) (d h : Nat) (t : Int) : Int :=
  (n.ovens.map (fun o => o.lower t0 n.guardTime (o.lastBefore t0 n.guardTime (t + d) + 1))).foldl
    min (h : Int)

/-- R100. -/
def riskGrade (load : Nat) : Nat :=
  if load ≤ 31 then 0 else if load ≤ 95 then 1 else if load ≤ 159 then 2 else 3

/-- What the evaluation of a query finds against its snapshot (R94, R97 to R100). -/
def Snapshot.evaluate (n : Snapshot) (arrival t0 : Time) (d h : Nat) : Finding :=
  if n.state ≠ .ready then .notReady
  else match n.search t0 d h (h + 1) 0 with
    | none => .none (riskGrade n.load)
    | some t =>
      .window ((t0 - arrival).toNat + t.toNat) (n.freeEnd t0 d h t - t).toNat (riskGrade n.load)

/-! ### The engine (R85, R86, R88 to R90, R101) -/

/-- The engine takes work (R90): the snapshot, and what the evaluation finds against it. -/
def State.beginEvaluation (s : State) (client : Client) (c : Chain) (arrival t0 : Time) (d h : Nat) :
    State :=
  let n := s.snapshot c
  { s with predictor :=
      { s.predictor with engine := .evaluating client n (n.evaluate arrival t0 d h) } }

/-- The arbiter (R88): an idle engine takes the oldest query, otherwise a waiting PREVIEW. It acts whenever the
engine is IDLE and work waits, and so at the end of each event that brings this about
(notes/assumptions/30.md). -/
def State.handOver (s : State) : State :=
  match s.predictor.engine, s.predictor.queue, s.predictor.preview with
  | .idle, q :: _, _ => s.beginEvaluation .scheduler q.chain q.arrival q.t0 q.d q.h
  | .idle, [], some p => s.beginEvaluation .preview p.chain p.arrival p.t0 p.d p.h
  | _, _, _ => s

/-- EVALUATION_START (R88, R90). -/
def execEvaluationStart (s : State) : Host.Outcome State Fault Refusal := .next s.handOver

/-- QUERY_ARRIVAL (R83 to R86, R88, R210): taken at the present time; accepted, and evaluated at once by an idle
engine, or refused at once. -/
def execQueryArrival (frame : List Byte) (s : State) : Host.Outcome State Fault Refusal :=
  match queryOf frame with
  | none => .next s
  | some (tag, ask) =>
    match ask.chain with
    | none => .next { s with predictor := s.predictor.leave (refusedAnswer tag) }
    | some c =>
      if s.predictor.queue.length < queryCapacity then
        let q : Query := { tag := tag, chain := c, arrival := s.now,
                           t0 := s.now + BitVec.ofNat 32 ask.offset, d := ask.d, h := ask.h }
        .next (State.handOver
          { s with predictor := { s.predictor with queue := s.predictor.queue ++ [q] } })
      else .next { s with predictor := s.predictor.leave (refusedAnswer tag) }

/-- R101: a result for a chain that is not READY on the snapshot channel becomes NOT_READY. -/
def Finding.checked (f : Finding) (n : Snapshot) (x : ChainRec) : Finding :=
  match f with
  | .notReady => .notReady
  | .none _ | .window _ _ _ => if x.state = .ready ∧ x.present = n.present then f else .notReady

/-- R87: the status and the fields of a finding. -/
def Finding.answer (f : Finding) (tag : Byte) : Answer :=
  match f with
  | .notReady => { tag := tag, status := .notReady, startOffset := 0, freeLength := 0, grade := 0 }
  | .none g => { tag := tag, status := .none, startOffset := 0, freeLength := 0, grade := g }
  | .window t free g => { tag := tag, status := .window, startOffset := t, freeLength := free, grade := g }

/-- R104: the three further fields of a PREVIEW result, 0 when the status is NOT_READY. -/
def Finding.previewExtras (f : Finding) (n : Snapshot) : List Byte :=
  match f with
  | .notReady => [0, 0, 0]
  | .none _ | .window _ _ _ => [byteOf n.ovens.length, byteOf n.leftOut, byteOf n.load]

/-- The result bytes of a PREVIEW (R104, 12.2). -/
def Finding.previewBytes (f : Finding) (n : Snapshot) : List Byte :=
  let a := f.answer 0
  [resultByte a.status false] ++ bytesOf 3 a.startOffset ++ bytesOf 3 a.freeLength
    ++ [byteOf a.grade] ++ f.previewExtras n

/-- DELIVERY (R101, R104, R85): the result leaves after the chain check, and the arbiter hands the free engine
to what waits (R88). -/
def execDelivery (s : State) : Host.Outcome State Fault Refusal :=
  match s.predictor.engine with
  | .idle => .next s
  | .evaluating client n found =>
    let final := found.checked n (s.chain n.chain)
    match client with
    | .scheduler =>
      match s.predictor.queue with
      | q :: rest =>
        .next (State.handOver { s with predictor :=
          { s.predictor with queue := rest, engine := .idle }.leave (final.answer q.tag) })
      | [] => .next (State.handOver { s with predictor := { s.predictor with engine := .idle } })
    | .preview =>
      .next (State.handOver (State.finish
        { s with predictor := { s.predictor with preview := none, engine := .idle } }
        (final.previewBytes n)))

/-- PREVIEW (R103): it becomes waiting, with its arrival at the entry into EXECUTION, and the arbiter
acts on it. -/
def execPreview (s : State) : Host.Outcome State Fault Refusal :=
  match s.request previewCode, s.predictor.preview with
  | some [control, o1, o0, d1, d0, h1, h0], none =>
    let ask := windowAskOf control (valueOf [o1, o0]) (valueOf [d1, d0]) (valueOf [h1, h0])
    match ask.chain with
    | none => .next (s.answer .invalid)
    | some c =>
      let p : PreviewReq := { chain := c, arrival := s.link.entered,
                              t0 := s.link.entered + BitVec.ofNat 32 ask.offset, d := ask.d, h := ask.h }
      .next (State.handOver { s with predictor := { s.predictor with preview := some p } })
  | _, _ => .next s

/-- R105: a PREVIEW is withdrawn, and an evaluation of it is abandoned. -/
def Predictor.withdrawPreview (p : Predictor) : Predictor :=
  match p.engine with
  | .evaluating .preview _ _ => { p with preview := none, engine := .idle }
  | .evaluating .scheduler _ _ | .idle => { p with preview := none }

/-- R106: every queued query is answered REFUSED, in arrival order, and the engine becomes IDLE. -/
def Predictor.softReset (p : Predictor) : Predictor :=
  { p with queue := [], preview := none, engine := .idle,
           answers := p.answers ++ p.queue.map (fun q => refusedAnswer q.tag) }

end Sys2Proof.Machine
end

