-- ==== Sys2Proof/Machine/Linking.lean ====
section
/-! DEFINITION. The control link (chapter 9, R160 to R171, R208): transactions, written bytes and read
bytes. A byte command is taken in the phase its row names (notes/assumptions/1.md). -/

namespace Sys2Proof.Machine

/-! ### Transactions (R160, R162) -/

/-- SELECT_ASSERTED (R160): a transaction begins where none is in progress. -/
def execSelectAsserted (s : State) : Host.Outcome State Fault Refusal :=
  match s.link.transaction with
  | .none => .next { s with link := { s.link with transaction := .opened, begun := none, miso := none } }
  | .opened | .write | .read | .status => .next s

/-- SELECT_DEASSERTED (R162): the transaction ends, an incomplete exchange is discarded, and MISO is high
impedance (12.5). The request state is kept (R160). -/
def execSelectDeasserted (s : State) : Host.Outcome State Fault Refusal :=
  .next { s with link := { s.link with transaction := .none, begun := none, miso := none } }

/-- The type that a transfer byte gives (R160, R208). -/
def transactionOf (transfer : Byte) : Transaction :=
  if transfer = 0x3C then .write else if transfer = 0xC3 then .read else .status

/-- An exchange begins: what the status byte shows then is latched (R160, R161, R163). -/
def State.beginExchange (s : State) : State :=
  { s with link := { s.link with begun := some s.standing } }

/-- An exchange completes that has shifted out the status byte, as at its start (R161, R163). -/
def State.shiftStatus (s : State) : State :=
  { s with link := { s.link with miso := some s.shown.byte, begun := none } }

/-- STATUS_EXCHANGE (R160, R163, R208). The first exchange of a transaction also gives its type; a later
exchange of a STATUS transaction returns the status byte (R161). -/
def execStatusExchange (transfer : Byte) (s : State) : Host.Outcome State Fault Refusal :=
  match s.link.transaction with
  | .opened =>
    let s' := s.shiftStatus
    .next { s' with link := { s'.link with transaction := transactionOf transfer } }
  | .status => .next s.shiftStatus
  | .none | .write | .read => .next s

/-! ### Written bytes (R161, R165 to R170) -/

/-- The link holds no request (R164, R168). -/
def Link.cleared (k : Link) : Link :=
  { k with phase := .idle, code := none, expected := 0, params := [], result := [], consumed := 0 }

/-- The link enters EXECUTION at the present time (R166, R167, R103). -/
def Link.execute (k : Link) (now : Time) : Link := { k with phase := .execution, entered := now }

/-- A byte is taken as a request code (R165). -/
def State.takeCode (s : State) (b : Byte) : State :=
  let k := s.link.cleared
  match requestRow b with
  | none => { s with link :=
      { k with phase := .result, code := some b, result := [resultByte .invalid false] } }
  | some row =>
    let k := { k with code := some b, expected := row.count }
    { s with link := if row.count = 0 then k.execute s.now else { k with phase := .command } }

/-- A byte written in a WRITE transaction in the phase `ph`: the status byte is shifted out as it stood
at the start of the exchange, and the byte is handled at its end (R161). -/
def State.written (s : State) (ph : Phase) (handle : State → State) : State :=
  if s.link.transaction = .write ∧ s.link.phase = ph then handle s.shiftStatus else s

/-- REQUEST_CODE (R165): a byte written in IDLE. -/
def execRequestCode (b : Byte) (s : State) : Host.Outcome State Fault Refusal :=
  .next (s.written .idle (fun s => s.takeCode b))

/-- PARAMETER_BYTE (R166): a byte written in COMMAND; the last one starts EXECUTION. -/
def execParameterByte (b : Byte) (s : State) : Host.Outcome State Fault Refusal :=
  .next (s.written .command (fun s =>
    let k := { s.link with params := s.link.params ++ [b] }
    { s with link := if k.expected ≤ k.params.length then k.execute s.now else k }))

/-- The requests that carry on through EXECUTION (R167). -/
def Link.longRequest (k : Link) : Bool := k.code == some sweepCode || k.code == some previewCode

/-- IGNORED_BYTE (R167): a byte written in the EXECUTION of a short request has no effect on it. -/
def execIgnoredByte (_b : Byte) (s : State) : Host.Outcome State Fault Refusal :=
  .next (if s.link.longRequest then s else s.written .execution (fun s => s))

/-! ### The end of a sweep, complete or aborted (R195, R196) -/

/-- The eight handle places of a SWEEP result; places beyond the count hold 0xFFFF (12.2). -/
def sweepPlaces (found : List (Nat × BitVec 4)) : List Byte :=
  (found.map (fun x => handleBytes x.1 x.2)).flatten
    ++ (List.replicate (8 - found.length) noHandle).flatten

/-- The bytes that follow the result byte of a SWEEP (12.2). -/
def sweepFields (found : List (Nat × BitVec 4)) (resume : Byte) : List Byte :=
  [byteOf found.length] ++ sweepPlaces found ++ [resume]

/-- The start slot among the parameter bytes of a SWEEP (12.2). -/
def sweepStartByte (params : List Byte) : Byte := params.getD 6 0

/-- R170, R196: the fields of an aborted sweep. Where no slot has been examined the resume slot is the
start slot. -/
def State.abortedSweepFields (s : State) : List Byte :=
  match s.sweep with
  | some w => sweepFields w.found (byteOf w.next)
  | none => sweepFields [] (sweepStartByte s.link.params)

/-- ABORT (R170, R105, R196): a byte written in the EXECUTION of a SWEEP or a PREVIEW ends it. -/
def execAbort (_b : Byte) (s : State) : Host.Outcome State Fault Refusal :=
  .next (s.written .execution (fun s =>
    if s.link.code = some sweepCode then
      State.finish { s with sweep := none } (resultByte .aborted false :: s.abortedSweepFields)
    else if s.link.code = some previewCode then
      State.handOver (State.answer { s with predictor := s.predictor.withdrawPreview } .aborted)
    else s))

/-- ABANDON (R169): a byte written in RESULT discards the result and is taken as a request code. -/
def execAbandon (b : Byte) (s : State) : Host.Outcome State Fault Refusal :=
  .next (s.written .result (fun s => s.takeCode b))

/-! ### Read bytes (R161, R168) -/

/-- READ_RESULT_BYTE (R168): an exchange of a READ transaction. Where it started in RESULT it shifts out the
next result byte and consumes it, and the last one returns the link to IDLE; started in any other phase it
returns the status byte and consumes nothing (R161). -/
def execReadResultByte (s : State) : Host.Outcome State Fault Refusal :=
  if s.link.transaction = .read then
    if s.shown.phase = .result then
      let k := { s.link with miso := s.link.result[s.link.consumed]?, begun := none,
                             consumed := s.link.consumed + 1 }
      .next { s with link := if k.result.length ≤ k.consumed then k.cleared else k }
    else .next s.shiftStatus
  else .next s

end Sys2Proof.Machine
end

