-- ==== Sys2Proof/Machine/Resets.lean ====
section
/-! DEFINITION. The two resets: POWER_ON_RESET and RESET, block by block. -/

namespace Sys2Proof.Machine

/-! ### Soft reset (R173) -/

/-- R28: an occupied slot is freed, a FREE slot stays. -/
def Slot.softReset (x : Slot) : Slot :=
  match x.record with
  | some _ => x.freed
  | none => x

/-- R28. -/
def Table.softReset (t : Table) : Table := { Table.reset with slots := t.slots.map Slot.softReset }

/-- R38, R39: the line is kept, and a line that is deasserted is seen at once. -/
def Intake.softReset (k : Intake) : Intake :=
  { Intake.reset with detectorReady := k.detectorReady, notReadySeen := !k.detectorReady }

/-- R131, R132: the tune code output is kept, and so are the level of LOCK and an automatic move not yet taken
at the controller. -/
def ChainRec.softReset (c : ChainRec) : ChainRec :=
  { ChainRec.reset with tuneOut := c.tuneOut, strobes := c.strobes, lockIn := c.lockIn, handed := c.handed }

/-- R131: the tune map is kept. -/
def Radio.softReset (r : Radio) : Radio :=
  { Radio.reset with
    chainA := r.chainA.softReset, chainB := r.chainB.softReset, tuneMap := r.tuneMap }

/-- R206. -/
def Notices.softReset (n : Notices) : Notices := { n with entries := [], attention := false }

/-- The soft reset of every block; the timebase and the parameters are untouched (R159, R176). All blocks reset in
one step, so that no delivery falls between the chains' reset and the predictor's: an evaluation in progress is
answered REFUSED (R106) and never NOT_READY (R102) (notes/assumptions/33.md, DESIGN CHOICE). -/
def State.softReset (s : State) : State :=
  { s with
    table := s.table.softReset
    intake := s.intake.softReset
    predictor := s.predictor.softReset
    radio := s.radio.softReset
    advisor := Advisor.reset
    cursor := none
    sweep := none
    notices := s.notices.softReset }

/-- RESET (R173). -/
def execReset (s : State) : Host.Outcome State Fault Refusal :=
  match s.request 0x02 with
  | some _ => .next (s.softReset.answer .ok)
  | none => .next s

/-! ### Power-on reset -/

/-- R38. -/
def Intake.powerOn (k : Intake) : Intake :=
  { Intake.reset with detectorReady := k.detectorReady, notReadySeen := !k.detectorReady }

/-- R131, R132: no strobe, and an automatic move not yet taken is discarded; the level of LOCK is the
synthesiser's. -/
def ChainRec.powerOn (c : ChainRec) : ChainRec :=
  { ChainRec.reset with strobes := c.strobes, lockIn := c.lockIn }

/-- R162: a transaction in progress becomes a STATUS transaction until select is deasserted. -/
def Transaction.powerOn : Transaction → Transaction
  | .none => .none
  | .opened | .write | .read | .status => .status

/-- POWER_ON_RESET (R28, R38, R107, R131, R133, R159, R162, R164, R180, R206, R210): every block takes its
power-on values; the input lines are as the outside drives them. The commands that wait and the argument
of the free values are the model's own and are kept. -/
def execPowerOnReset (s : State) : Host.Outcome State Fault Refusal :=
  .next
    { State.reset with
      intake := s.intake.powerOn
      radio := { Radio.reset with
        chainA := s.radio.chainA.powerOn, chainB := s.radio.chainB.powerOn }
      link := { Link.reset with transaction := s.link.transaction.powerOn }
      freeCount := s.freeCount
      pending := s.pending }

end Sys2Proof.Machine
end

