-- ==== Sys2Proof/Machine/Settings.lean ====
section
/-! DEFINITION. READ STATUS, SET PARAMETER, SET NOTICE LEVEL (chapter 9) and FETCH NOTICE (chapter 11). -/

namespace Sys2Proof.Machine

/-! ### READ STATUS (R172, 12.2) -/

/-- The domain byte: the domain in bits 1..0, the lock in bit 7; the others read 0 (notes/assumptions/32.md). -/
def Radio.domainByte (r : Radio) : Byte := r.domain.code ||| (if r.domainLock then 0x80 else 0x00)

/-- The four bytes of one chain. -/
def ChainRec.statusBytes (c : ChainRec) : List Byte :=
  [c.state.code, channelByte c.present, channelByte c.target, flagByte c.auto]

/-- The five counts of R3. -/
def StateCounts.bytes (n : StateCounts) : List Byte :=
  [byteOf n.free, byteOf n.candidate, byteOf n.tracked, byteOf n.coasting, byteOf n.retired]

/-- The flag byte: the blind flag in bit 0, ATN in bit 1; the others read 0 (notes/assumptions/32.md). -/
def State.statusFlags (s : State) : Byte :=
  (if s.intake.blindFlag then 0x01 else 0x00) ||| (if s.notices.attention then 0x02 else 0x00)

/-- The status record, 21 bytes (R172, 12.2). -/
def State.statusRecord (s : State) : List Byte :=
  [s.timebase.clock.code] ++ bytesOf 4 s.now.toNat ++ [s.radio.domainByte]
    ++ s.radio.chainA.statusBytes ++ s.radio.chainB.statusBytes ++ s.table.counts.bytes
    ++ [byteOf s.table.pinned, s.statusFlags]

/-- READ STATUS (R172). -/
def execReadStatus (s : State) : Host.Outcome State Fault Refusal :=
  match s.request 0x01 with
  | some _ => .next (s.answerOk false s.statusRecord)
  | none => .next s

/-! ### SET PARAMETER (R174 to R176) -/

/-- The id of ATTENTION_THRESHOLD. -/
def thresholdId : Byte := 0x0E

/-- A parameter takes a value; a new ATTENTION_THRESHOLD has attention judged again (R203). -/
def State.setParam (s : State) (id : Byte) (v : Nat) : State :=
  let s' : State := { s with params := s.params.write id v }
  if id = thresholdId then s'.judge else s'

/-- SET PARAMETER: the value is clamped to the range and held (R175). -/
def execSetParameter (s : State) : Host.Outcome State Fault Refusal :=
  match s.request 0x11 with
  | some [id, hi, lo] =>
    match paramRange id with
    | none => .next (s.answer .invalid)
    | some (least, most) =>
      let v := valueOf [hi, lo]
      let held := clampNat least most v
      .next ((s.setParam id held).answerOk (decide (held ≠ v)) (bytesOf 2 held))
  | _ => .next s

/-! ### SET NOTICE LEVEL (R177, R202) -/

/-- The level that a kind holds after a SET NOTICE LEVEL (R177). -/
def NoticeKind.heldLevel (k : NoticeKind) (v : Nat) : Nat :=
  match k with
  | .clockFallback => 7
  | .ovenConfirmed | .ovenRetired | .neighbourConfirmed | .neighbourRetired | .tableFull
  | .intakeOverflow | .referencePresent | .moveDone | .moveFailed | .advice => clampNat 0 7 v

/-- SET NOTICE LEVEL. -/
def execSetNoticeLevel (s : State) : Host.Outcome State Fault Refusal :=
  match s.request 0x12 with
  | some [kind, level] =>
    match noticeKindOf kind with
    | none => .next (s.answer .invalid)
    | some k =>
      let held := k.heldLevel level.toNat
      .next ((State.judge
        { s with notices := { s.notices with levels := s.notices.levels.setLevel k held } }).answerOk
        (decide (held ≠ level.toNat)) [byteOf held])
  | _ => .next s

/-! ### FETCH NOTICE (R204) -/

/-- An entry is taken before another: the higher level first, then the earlier kind. -/
def Levels.takenBefore (l : Levels) (a b : Entry) : Bool :=
  decide (l.level b.kind < l.level a.kind)
    || (decide (l.level a.kind = l.level b.kind) && decide (a.kind.code < b.kind.code))

/-- The entry that a FETCH NOTICE takes: of one kind the oldest, the list being kept oldest first. -/
def Notices.chosen (n : Notices) : Option Entry := firstBest n.levels.takenBefore n.entries

/-- The result bytes of an entry (12.2). -/
def Entry.bytes (e : Entry) : List Byte :=
  [byteOf e.kind.code] ++ e.subject.bytes ++ [byteOf e.count, e.data.byte]

/-- FETCH NOTICE (R204). -/
def execFetchNotice (s : State) : Host.Outcome State Fault Refusal :=
  match s.request 0x60 with
  | some _ =>
    match s.notices.chosen with
    | none => .next (s.answer .none)
    | some e =>
      .next ((State.judge
        { s with notices := { s.notices with entries := s.notices.entries.erase e } }).answerOk
        false e.bytes)
  | none => .next s

end Sys2Proof.Machine
end

