-- ==== Sys2Proof/Machine/Sweeps.lean ====
section
/-! DEFINITION. Sweeps (chapter 10, R192 to R195): SWEEP and SWEEP_EXAMINATION. -/

namespace Sys2Proof.Machine

/-- The key that every record matches (R192). -/
def wildcardKey : Nat := 0xFFFF

/-- The value of a field that a sweep compares; none for a record without the field (R193). -/
def Record.sweepValue (r : Record) (f : SweepField) : Option Nat :=
  match f with
  | .spanLow => some r.span.lo
  | .spanHigh => some r.span.hi
  | .hits => some r.hits
  | .idle => some r.idle
  | .share => r.part.airtime?.map (·.share)
  | .period =>
    match r.part with
    | .oven o => if o.periodKnown then some (o.p16 / 16) else none
    | .neighbour _ _ _ | .steady _ => none
  | .channel =>
    match r.part with
    | .neighbour _ ch _ => some ch
    | .oven _ | .steady _ => none
  | .tag =>
    match r.part with
    | .neighbour tag _ _ => some tag.toNat
    | .oven _ | .steady _ => none

/-- A value compares with the key as the condition says (R193). -/
def SweepCond.holds (c : SweepCond) (v key : Nat) : Bool :=
  match c with
  | .equal => decide (v = key)
  | .atMost => decide (v ≤ key)
  | .atLeast => decide (key ≤ v)

/-- The field condition of R193. -/
def SweepFilter.fieldHolds (f : SweepFilter) (r : Record) : Bool :=
  decide (f.key = wildcardKey) ||
    (match r.sweepValue f.field with
     | some v => f.cond.holds v f.key
     | none => false)

/-- R193. -/
def SweepFilter.accepts (f : SweepFilter) (x : Slot) : Bool :=
  match x.record with
  | none => false
  | some r =>
    (match f.kind with
     | none => true
     | some k => r.kind == k) && f.states.contains r.state && f.fieldHolds r

/-- SWEEP (R192): its parameters are checked, and the examination begins; the link stays in
EXECUTION. -/
def execSweep (s : State) : Host.Outcome State Fault Refusal :=
  match s.request sweepCode, s.sweep with
  | some [kindByte, stateByte, field, cond, k1, k0, start, maximum], none =>
    match kindFilterOf kindByte, sweepFieldOf field, sweepCondOf cond with
    | some kind, some f, some c =>
      if 63 < start.toNat then .next (s.answer .invalid)
      else
        let limit := clampNat 1 8 maximum.toNat
        let filter : SweepFilter :=
          { kind := kind, states := sweepStatesOf stateByte, field := f, cond := c,
            key := valueOf [k1, k0] }
        let w : Sweep :=
          { filter := filter, maximum := limit, clamped := decide (limit ≠ maximum.toNat),
            next := start.toNat, examined := 0, found := [] }
        .next { s with sweep := some w }
    | _, _, _ => .next (s.answer .invalid)
  | _, _ => .next s

/-- R194: one slot examined. -/
def Sweep.examine (w : Sweep) (x : Slot) : Sweep :=
  { w with
    next := (w.next + 1) % 64
    examined := w.examined + 1
    found := if w.filter.accepts x then w.found ++ [(w.next, x.gen)] else w.found }

/-- R194: the sweep stops at its maximum, or with 64 slots examined. -/
def Sweep.stops (w : Sweep) : Bool := decide (w.maximum ≤ w.found.length) || decide (64 ≤ w.examined)

/-- The resume slot of a sweep that stops (R195). -/
def Sweep.resume (w : Sweep) : Byte := if 64 ≤ w.examined then 0xFF else byteOf w.next

/-- SWEEP_EXAMINATION (R194, R195): the next slot is examined as it stands; a sweep that stops ends with
OK. -/
def execSweepExamination (s : State) : Host.Outcome State Fault Refusal :=
  match s.request sweepCode, s.sweep with
  | some _, some w =>
    let w' := w.examine (s.table.slot w.next)
    if w'.stops then
      .next (State.answerOk { s with sweep := none } w'.clamped (sweepFields w'.found w'.resume))
    else .next { s with sweep := some w' }
  | _, _ => .next s

end Sys2Proof.Machine
end

