-- ==== Sys2Proof/Machine/Timekeeping.lean ====
section
/-! DEFINITION. The supervision of the reference clock (chapter 8): REFERENCE_LOSS, REFERENCE_RETURN,
QUALIFICATION_EXPIRY and RESTORE CLOCK. -/

namespace Sys2Proof.Machine

/-- The time that a return needs to qualify, in µs (R150). -/
def qualificationTime : Nat := 1000

/-- REFERENCE_LOSS (R149 to R153), for an input that is PRESENT. -/
def execReferenceLoss (s : State) : Host.Outcome State Fault Refusal :=
  if s.timebase.refPresent then
    let t := { s.timebase with refPresent := false, qual := .idle }
    match s.timebase.clock with
    | .reference =>
      .next (State.raise { s with timebase := { t with clock := .fallback } } .clockFallback .none .none)
    | .internalStart | .fallback => .next { s with timebase := t }
  else .next s

/-- REFERENCE_RETURN (R149, R150), for an input that is ABSENT. -/
def execReferenceReturn (s : State) : Host.Outcome State Fault Refusal :=
  if s.timebase.refPresent then .next s
  else .next { s with timebase :=
    { s.timebase with refPresent := true, qual := .qualifying (s.expiryAfter qualificationTime) } }

/-- The reference is qualified, and the clock state decides what follows (R150, R151, R153). -/
def State.qualify (s : State) : State :=
  let t := { s.timebase with qual := .qualified }
  match s.timebase.clock with
  | .internalStart => { s with timebase := { t with clock := .reference } }
  | .fallback => State.raise { s with timebase := t } .referencePresent .none .none
  | .reference => { s with timebase := t }

/-- QUALIFICATION_EXPIRY (R150, R151, R153), for a qualification in progress. -/
def execQualificationExpiry (s : State) : Host.Outcome State Fault Refusal :=
  match s.timebase.qual with
  | .qualifying e => .next (s.atInstant (s.timebase.remaining e) State.qualify)
  | .idle | .qualified => .next s

/-- RESTORE CLOCK (R154). -/
def execRestoreClock (s : State) : Host.Outcome State Fault Refusal :=
  match s.request 0x15 with
  | some _ =>
    match s.timebase.clock, s.timebase.qual with
    | .fallback, .qualified =>
      .next (State.answer { s with timebase := { s.timebase with clock := .reference } } .ok)
    | .fallback, _ => .next (s.answer .noReference)
    | .internalStart, _ | .reference, _ => .next (s.answer .ok)
  | none => .next s

end Sys2Proof.Machine
end

