-- ==== Sys2Proof/Machine/Dispatch.lean ====
section
/-! DEFINITION. The dispatch of a command to its meaning. -/

namespace Sys2Proof.Machine

/-- The effect of a command on everything but the queue of commands. -/
def exec (i : Instr) (s : State) : Host.Outcome State Fault Refusal :=
  match i with
  | .powerOnReset => Sys2Proof.Machine.execPowerOnReset s
  | .reportArrival frame => Sys2Proof.Machine.execReportArrival frame s
  | .detectorFrameDiscarded bytes => Sys2Proof.Machine.execDetectorFrameDiscarded bytes s
  | .detectorReadyDeasserted => Sys2Proof.Machine.execDetectorReadyDeasserted s
  | .detectorReadyAsserted => Sys2Proof.Machine.execDetectorReadyAsserted s
  | .takeReport => Sys2Proof.Machine.execTakeReport s
  | .epochBoundary => Sys2Proof.Machine.execEpochBoundary s
  | .midEpoch => Sys2Proof.Machine.execMidEpoch s
  | .automaticMove c => Sys2Proof.Machine.execAutomaticMove c s
  | .queryArrival frame => Sys2Proof.Machine.execQueryArrival frame s
  | .schedulerFrameDiscarded bytes => Sys2Proof.Machine.execSchedulerFrameDiscarded bytes s
  | .evaluationStart => Sys2Proof.Machine.execEvaluationStart s
  | .delivery => Sys2Proof.Machine.execDelivery s
  | .answerFrameSent => Sys2Proof.Machine.execAnswerFrameSent s
  | .selectAsserted => Sys2Proof.Machine.execSelectAsserted s
  | .statusExchange transfer => Sys2Proof.Machine.execStatusExchange transfer s
  | .selectDeasserted => Sys2Proof.Machine.execSelectDeasserted s
  | .requestCode b => Sys2Proof.Machine.execRequestCode b s
  | .parameterByte b => Sys2Proof.Machine.execParameterByte b s
  | .ignoredByte b => Sys2Proof.Machine.execIgnoredByte b s
  | .abort b => Sys2Proof.Machine.execAbort b s
  | .abandon b => Sys2Proof.Machine.execAbandon b s
  | .readResultByte => Sys2Proof.Machine.execReadResultByte s
  | .readStatus => Sys2Proof.Machine.execReadStatus s
  | .reset => Sys2Proof.Machine.execReset s
  | .setDomain => Sys2Proof.Machine.execSetDomain s
  | .setParameter => Sys2Proof.Machine.execSetParameter s
  | .setNoticeLevel => Sys2Proof.Machine.execSetNoticeLevel s
  | .setTuneCode => Sys2Proof.Machine.execSetTuneCode s
  | .setAuto => Sys2Proof.Machine.execSetAuto s
  | .restoreClock => Sys2Proof.Machine.execRestoreClock s
  | .move => Sys2Proof.Machine.execMove s
  | .step => Sys2Proof.Machine.execStep s
  | .setChannel => Sys2Proof.Machine.execSetChannel s
  | .abortMove => Sys2Proof.Machine.execAbortMove s
  | .lockAsserted c => Sys2Proof.Machine.execLockAsserted c s
  | .lockDeasserted c => Sys2Proof.Machine.execLockDeasserted c s
  | .lockTimerExpiry c => Sys2Proof.Machine.execLockTimerExpiry c s
  | .dwellTimerExpiry c => Sys2Proof.Machine.execDwellTimerExpiry c s
  | .pin => Sys2Proof.Machine.execPin s
  | .setOrigin => Sys2Proof.Machine.execSetOrigin s
  | .retire => Sys2Proof.Machine.execRetire s
  | .openRecord => Sys2Proof.Machine.execOpenRecord s
  | .readRecord => Sys2Proof.Machine.execReadRecord s
  | .editField => Sys2Proof.Machine.execEditField s
  | .closeRecord => Sys2Proof.Machine.execCloseRecord s
  | .nextRecord => Sys2Proof.Machine.execNextRecord s
  | .sweep => Sys2Proof.Machine.execSweep s
  | .sweepExamination => Sys2Proof.Machine.execSweepExamination s
  | .preview => Sys2Proof.Machine.execPreview s
  | .readCosts => Sys2Proof.Machine.execReadCosts s
  | .fetchNotice => Sys2Proof.Machine.execFetchNotice s
  | .referenceLoss => Sys2Proof.Machine.execReferenceLoss s
  | .referenceReturn => Sys2Proof.Machine.execReferenceReturn s
  | .qualificationExpiry => Sys2Proof.Machine.execQualificationExpiry s

end Sys2Proof.Machine
end

