-- ==== Sys2Proof/Machine/Idle.lean ====
section
/-! DEFINITION. What comes next while no command waits: the work that stands ready inside the part, the start of
an exchange, or the passing of one microsecond (notes/assumptions/8.md, 29.md). -/

namespace Sys2Proof.Machine

/-- What a step on an empty queue does. -/
inductive Act where
  | command (i : Instr)
  | exchangeBegins
  | microsecond
deriving DecidableEq, Repr

/-- An act, where it is due. -/
def dueWhen (b : Bool) (a : Act) : List Act := if b then [a] else []

/-- The request that stands in EXECUTION and has not acted yet (R167). -/
def State.requestAct (s : State) : List Act :=
  match s.link.code.bind requestRow with
  | some row => dueWhen s.requestDue (.command row.command)
  | none => []

/-- The engine is idle and work waits (R88). -/
def Predictor.handOverDue (p : Predictor) : Bool :=
  p.engine == .idle && !(p.queue.isEmpty && p.preview.isNone)

/-- The acts that come before all others: the request in EXECUTION that has not acted (R167), and the arbiter's
hand-over (R88). -/
def State.immediate (s : State) : List Act :=
  s.requestAct ++ dueWhen s.predictor.handOverDue (.command .evaluationStart)

/-- The work that stands ready at no fixed instant, and the start of an exchange in a transaction (R160). -/
def State.untimed (s : State) : List Act :=
  dueWhen s.sweep.isSome (.command .sweepExamination)
    ++ dueWhen s.radio.chainA.handed.isSome (.command (.automaticMove .A))
    ++ dueWhen s.radio.chainB.handed.isSome (.command (.automaticMove .B))
    ++ dueWhen (!s.intake.queue.isEmpty) (.command .takeReport)
    ++ dueWhen (s.predictor.engine != .idle) (.command .delivery)
    ++ dueWhen (!s.predictor.answers.isEmpty) (.command .answerFrameSent)
    ++ dueWhen (s.link.transaction != .none && s.link.begun.isNone) .exchangeBegins

/-- The row of a chain's expiry. -/
def ChainRec.expiryRow (x : ChainRec) (c : Chain) : Instr :=
  if x.state = .retuning then .lockTimerExpiry c else .dwellTimerExpiry c

/-- A time is reached. -/
def State.reached (s : State) (e : Option Time) : Bool :=
  (e.map (fun t => s.timebase.remaining t == 0)).getD false

/-- The work of the instants at which the counter stands. -/
def State.timed (s : State) : List Act :=
  dueWhen s.timebase.boundaryDue (.command .epochBoundary)
    ++ dueWhen s.timebase.midDue (.command .midEpoch)
    ++ dueWhen (s.reached s.radio.chainA.expiry) (.command (s.radio.chainA.expiryRow .A))
    ++ dueWhen (s.reached s.radio.chainB.expiry) (.command (s.radio.chainB.expiryRow .B))
    ++ dueWhen (s.reached s.timebase.qual.expiry) (.command .qualificationExpiry)

/-- What may come next. A microsecond passes over no timed instant whose work is not taken (R147). The manual does
not say how long the EXECUTION of a short request lasts; here it ends before any other act, so that no exchange starts
in it of its own accord (notes/assumptions/29.md, DESIGN CHOICE). -/
def State.acts (s : State) : List Act :=
  if s.immediate.isEmpty then
    s.untimed ++ s.timed ++ dueWhen (s.mayPass 1) .microsecond
  else s.immediate

/-- A microsecond passes (R146). -/
def State.tick (s : State) : State := { s with timebase := s.timebase.advance 1 }

/-- What comes next, chosen freely among what may. -/
def State.nextAct (s : State) : Option Act :=
  s.acts[Config.idleChoice s.freeCount % s.acts.length]?

/-- The use of a free choice is counted. -/
def State.chosen (s : State) : State := { s with freeCount := s.freeCount + 1 }

end Sys2Proof.Machine
end

