-- ==== Sys2Proof/Machine/Step.lean ====
section
/-! DEFINITION. One step: the command at the front of the queue, or the part's own work. -/

namespace Sys2Proof.Machine

/-- One step of the part. -/
def step (s : State) : Host.Outcome State Fault Refusal :=
  match s.pending with
  | c :: rest => exec c { s with pending := rest }
  | [] =>
    match s.nextAct with
    | some (.command c) => exec c s.chosen
    | some .exchangeBegins => .next s.chosen.beginExchange
    | some .microsecond => .next s.chosen.tick
    | none => .next s.chosen

/-- The command that the word spells is put at the front of the queue; the state is unchanged where it
spells none. -/
def State.withFetchWord (s : State) (nbits w : Nat) : State :=
  match decodeTableWord nbits w with
  | some c => { s with pending := c :: s.pending }
  | none => s

end Sys2Proof.Machine
end

