-- ==== Sys2Proof/Safety.lean ====
section
/-! DEFINITION. What a safe state of the part is: the laws that the manual names, each as a proposition
over a state, and the words that the statements share. -/

namespace Sys2Proof.Machine

/-! ### Words for the statements -/

/-- The link is in EXECUTION of the request with this code and these parameter bytes (R166, R167). -/
abbrev State.Executing (s : State) (code : Byte) (params : List Byte) : Prop :=
  s.link.phase = .execution ∧ s.link.code = some code ∧ s.link.params = params

/-- The channel of a NEIGHBOUR record (R10). -/
def Part.channel? : Part → Option Nat
  | .neighbour _ ch _ => some ch
  | .oven _ | .steady _ => none

/-- The network tag of a NEIGHBOUR record (R10). -/
def Part.tag? : Part → Option (BitVec 16)
  | .neighbour tag _ _ => some tag
  | .oven _ | .steady _ => none

/-- The chain byte of a request (12.1). -/
def chainByte : Chain → Byte
  | .A => 0x00
  | .B => 0x01

/-- The report queue without its head (R33, R39). -/
def State.taken (s : State) (rest : List Report) : State :=
  { s with intake := { s.intake with queue := rest } }

/-- The association engine is about to take this report (R39). -/
abbrev State.Takes (s : State) (rep : Report) (rest : List Report) : Prop :=
  s.intake.engine = .waiting ∧ s.intake.queue = rep :: rest

/-- A live oven of known period and phase that overlaps the report (R41). -/
abbrev Record.Rhythmic (r : Record) (o : OvenPart) (rep : Report) : Prop :=
  r.state ≠ .retired ∧ o.periodKnown = true ∧ o.phaseKnown = true ∧ r.span.overlaps rep.span = true

/-- The magnitude of a rhythmic oven's error against a report (R54). -/
def OvenPart.errorOf (o : OvenPart) (rep : Report) : Nat := (o.phaseMatch (to16 rep.start)).e16.natAbs

/-- The tolerance of an oven in matching and absorbing, in µs: W, doubled in COASTING, doubled again out of
REFERENCE, at most 8,000 (R53). -/
def State.tolerance (s : State) (r : Record) (o : OvenPart) : Nat :=
  min 8000 (o.w * (if r.state = .coasting then 2 else 1)
    * (if s.timebase.clock = .reference then 1 else 2))

/-- The report passes the phase match test of an oven (R41, R54). -/
abbrev State.Passes (s : State) (rep : Report) (r : Record) (o : OvenPart) : Prop :=
  o.errorOf rep ≤ s.tolerance r o * 16

/-- The report falls in the on-interval of the oven's last predicted start: k is the floor of the offset from the
anchor over the period, and the start lies at most D and the tolerance after A16 + k × P16 (R42). -/
abbrev State.Absorbs (s : State) (rep : Report) (r : Record) (o : OvenPart) : Prop :=
  (to16 rep.start - o.a16).toInt - Int.fdiv (to16 rep.start - o.a16).toInt o.p16 * o.p16
    ≤ (o.d + s.tolerance r o) * 16

/-- Step 1 of the swept order leaves the report unsettled (R41). -/
abbrev State.Unmatched (s : State) (rep : Report) : Prop :=
  ∀ y ∈ s.table.records, ∀ p ∈ y.2.oven?, y.2.Rhythmic p rep → ¬ s.Passes rep y.2 p

/-- Steps 1 and 2 of the swept order leave the report unsettled (R41, R42). -/
abbrev State.Unsettled (s : State) (rep : Report) : Prop :=
  ∀ y ∈ s.table.records, ∀ p ∈ y.2.oven?, y.2.Rhythmic p rep →
    ¬ s.Passes rep y.2 p ∧ ¬ s.Absorbs rep y.2 p

/-- A live pinned oven of unknown phase that overlaps the report (R43). -/
abbrev Record.Phaseless (r : Record) (o : OvenPart) (rep : Report) : Prop :=
  r.state ≠ .retired ∧ r.origin = .pinned ∧ o.phaseKnown = false ∧ r.span.overlaps rep.span = true

/-- An oven candidate of unknown period that overlaps the report (R44). -/
abbrev Record.Periodless (r : Record) (o : OvenPart) (rep : Report) : Prop :=
  r.state = .candidate ∧ o.periodKnown = false ∧ r.span.overlaps rep.span = true

/-- Steps 1 to 3 of the swept order leave the report unsettled (R41 to R43). -/
abbrev State.Unacquired (s : State) (rep : Report) : Prop :=
  s.Unsettled rep ∧ ∀ y ∈ s.table.records, ∀ p ∈ y.2.oven?, ¬ y.2.Phaseless p rep

/-- A live NEIGHBOUR record of the tag and the channel (R47). -/
abbrev Record.Named (r : Record) (tag : BitVec 16) (ch : Nat) : Prop :=
  r.state ≠ .retired ∧ r.part.tag? = some tag ∧ r.part.channel? = some ch

/-- A live STEADY record that overlaps the report (R49). -/
abbrev Record.SteadyOver (r : Record) (rep : Report) : Prop :=
  r.state ≠ .retired ∧ r.kind = .steady ∧ r.span.overlaps rep.span = true

/-- The slot is the lowest FREE one (R12). -/
abbrev Table.LowestFree (t : Table) (i : Nat) : Prop :=
  i < t.slots.length ∧ t.record i = none ∧ ∀ j < i, (t.record j).isSome = true

/-- The slot holds the oldest candidate that is not held; equal seniority goes to the lower slot (R12). -/
abbrev Table.OldestCandidate (t : Table) (i : Nat) (r : Record) : Prop :=
  (i, r) ∈ t.records ∧ r.state = .candidate ∧ r.held = false
    ∧ ∀ y ∈ t.records, y.2.state = .candidate → y.2.held = false →
        t.seniority y.2 < t.seniority r ∨ (t.seniority y.2 = t.seniority r ∧ i ≤ y.1)

/-- The lower edge, included, of a snapshot oven's forbidden interval k, as a position after t0: the floor of
its start in µs, minus W_eff, minus g (R95, R96). -/
def SnapOven.lowerEdge (o : SnapOven) (t0 : Time) (g : Nat) (k : Int) : Int :=
  ⌊(((o.a16 - to16 t0).toInt + k * o.p16 : Int) : ℚ) / 16⌋ - o.wEff - g

/-- The upper edge, excluded: the ceiling of its start in µs, plus D, plus W_eff, plus g (R95, R96). -/
def SnapOven.upperEdge (o : SnapOven) (t0 : Time) (g : Nat) (k : Int) : Int :=
  ⌈(((o.a16 - to16 t0).toInt + k * o.p16 : Int) : ℚ) / 16⌉ + o.d + o.wEff + g

/-- A time t, as a position after t0, starts a window of length d that no forbidden interval of the
snapshot overlaps (R95, R96). -/
def Snapshot.Clear (n : Snapshot) (t0 : Time) (t : Int) (d : Nat) : Prop :=
  ∀ o ∈ n.ovens, ∀ k : Int,
    t + d ≤ o.lowerEdge t0 n.guardTime k ∨ o.upperEdge t0 n.guardTime k ≤ t

/-- The risk grade of a network load (R100). -/
def gradeOf (load : Nat) : Nat :=
  if load ≤ 31 then 0 else if load ≤ 95 then 1 else if load ≤ 159 then 2 else 3

/-- The record of a slot is TRACKED or COASTING and its span overlaps lo..hi. -/
abbrev Record.Over (r : Record) (lo hi : Nat) : Prop :=
  (r.state = .tracked ∨ r.state = .coasting) ∧ r.span.lo ≤ hi ∧ lo ≤ r.span.hi

/-- What a slot adds to the network load of lo..hi: the share of a NEIGHBOUR or STEADY record over it whose level
is at or above −82 dBm (R77). -/
def Slot.networkShare (x : Slot) (lo hi : Nat) : Nat :=
  match x.record with
  | none => 0
  | some r =>
    match r.part with
    | .oven _ => 0
    | .neighbour _ _ a | .steady a => if r.Over lo hi ∧ -82 ≤ a.level then a.share else 0

/-- What a slot adds to the oven load of lo..hi: 256 × D × 16 / P16, rounded, ties toward +∞, of an OVEN record over
it of known period and phase (R79). -/
def Slot.ovenDuty (x : Slot) (lo hi : Nat) : Nat :=
  match x.record with
  | none => 0
  | some r =>
    match r.part with
    | .oven o =>
      if r.Over lo hi ∧ o.periodKnown = true ∧ o.phaseKnown = true then
        (2 * (256 * o.d * 16) + o.p16) / (2 * o.p16)
      else 0
    | .neighbour _ _ _ | .steady _ => 0

/-- The network load of lo..hi (R77). -/
def Table.networkIn (t : Table) (lo hi : Nat) : Nat :=
  min 255 (t.slots.map (·.networkShare lo hi)).sum

/-- The oven load of lo..hi (R79). -/
def Table.ovensIn (t : Table) (lo hi : Nat) : Nat := min 255 (t.slots.map (·.ovenDuty lo hi)).sum

/-- A commit of these staged values makes the period of a CANDIDATE known and lets it be confirmed (R15, R186). -/
def Record.commitConfirms (r : Record) (g : Staged) (p : Params) : Bool :=
  match r.part with
  | .oven o => !o.periodKnown && g.p.isSome && r.state == .candidate && decide (p.ovenConfirm ≤ r.hits)
  | .neighbour _ _ _ | .steady _ => false

/-- The values a confirmation gives a record (R16). -/
abbrev Record.asTracked (r : Record) : Record :=
  { r with state := .tracked, idle := 0, emptyStreak := 0, age := 0 }

/-- The value v stands in the field that a sweep compares; a record without the field has none (R193). -/
def Record.HasValue (r : Record) (f : SweepField) (v : Nat) : Prop :=
  match f with
  | .spanLow => v = r.span.lo
  | .spanHigh => v = r.span.hi
  | .hits => v = r.hits
  | .idle => v = r.idle
  | .share => (∃ tag ch a, r.part = .neighbour tag ch a ∧ v = a.share) ∨ ∃ a, r.part = .steady a ∧ v = a.share
  | .period => ∃ o, r.part = .oven o ∧ o.periodKnown = true ∧ v = o.p16 / 16
  | .channel => ∃ tag a, r.part = .neighbour tag v a
  | .tag => ∃ tag ch a, r.part = .neighbour tag ch a ∧ v = tag.toNat

/-- A record matches a sweep's filter (R193). -/
def SweepFilter.Matches (f : SweepFilter) (r : Record) : Prop :=
  (f.kind = none ∨ f.kind = some r.kind) ∧ r.state ∈ f.states
    ∧ (f.key = 0xFFFF ∨ ∃ v, r.HasValue f.field v ∧
        ((f.cond = .equal ∧ v = f.key) ∨ (f.cond = .atMost ∧ v ≤ f.key)
          ∨ (f.cond = .atLeast ∧ f.key ≤ v)))

/-- An entry that calls for ATTENTION is pending (R203). -/
abbrev Notices.Calls (n : Notices) (threshold : Nat) : Prop :=
  ∃ e ∈ n.entries, threshold < n.levels.level e.kind ∨ e.kind = .clockFallback

/-- A request stands in EXECUTION and has not acted yet: a SWEEP acts as its examination starts, a PREVIEW as
it becomes waiting (R167). -/
abbrev State.Unserved (s : State) : Prop :=
  s.link.phase = .execution ∧ ¬ (s.link.code = some 0x50 ∧ s.sweep.isSome = true)
    ∧ ¬ (s.link.code = some 0x51 ∧ s.predictor.preview.isSome = true)

/-- In the next `n` microseconds no timed instant lies before the last of them, and none of them passes over a
request, an automatic move or an instant that is not taken (R120, R121, R141, R147, R150, R167). -/
abbrev State.Reaches (s : State) (n : Nat) : Prop :=
  (s.timebase.boundaryDue = true ∨ s.timebase.midDue = true ∨ s.Unserved
      ∨ (∃ c, (s.chain c).handed.isSome = true) → n = 0)
    ∧ s.timebase.epochTimer + n ≤ 100000
    ∧ (s.timebase.epochTimer < 50000 → s.timebase.epochTimer + n ≤ 50000)
    ∧ (∀ c e, (s.chain c).state = .retuning → (s.chain c).lockTimer = some e →
        (n : Int) ≤ max 0 (e - s.now).toInt)
    ∧ (∀ c e, (s.chain c).state = .dwell → (s.chain c).dwellTimer = some e →
        (n : Int) ≤ max 0 (e - s.now).toInt)
    ∧ ∀ e, s.timebase.qual = .qualifying e → (n : Int) ≤ max 0 (e - s.now).toInt

/-- The timebase `n` microseconds later, where no instant lies before the last of them: the counter and the epoch
timer advance together, the timer restarts at 100,000, and the work of an instant that is reached is due
(R146, R147). -/
def Timebase.later (b : Timebase) (n : Nat) : Timebase :=
  { b with
    time := b.time + BitVec.ofNat 32 n
    epochTimer := (b.epochTimer + n) % 100000
    boundaryDue := b.boundaryDue || decide (b.epochTimer + n = 100000)
    midDue := b.midDue || decide (b.epochTimer < 50000 ∧ b.epochTimer + n = 50000) }

/-- The microseconds to a time; 0 where it is not ahead. -/
def State.ahead (s : State) (e : Time) : Nat := (max 0 (e - s.now).toInt).toNat

/-! ### The law of the span (R8) -/

/-- A span lies in the band, with low at or below high and a width of at most 40. -/
abbrev Span.Lawful (x : Span) : Prop := x.lo ≤ x.hi ∧ x.hi ≤ 100 ∧ x.hi - x.lo ≤ 40

/-- A record's span is lawful, and a NEIGHBOUR's is that of its channel (R8, R10). -/
abbrev Record.SpanLawful (r : Record) : Prop :=
  r.span.Lawful ∧ ∀ ch ∈ r.part.channel?, 1 ≤ ch ∧ ch ≤ 14 ∧ r.span = channelSpan ch

/-- Staged values lie in their ranges (R183). -/
abbrev Staged.Lawful (g : Staged) : Prop :=
  (∀ v ∈ g.spanLow, v ≤ 100) ∧ (∀ v ∈ g.spanHigh, v ≤ 100)
    ∧ (∀ v ∈ g.p, 256000 ≤ v ∧ v ≤ 336000) ∧ (∀ v ∈ g.d, 1000 ≤ v ∧ v ≤ 15000)
    ∧ (∀ v ∈ g.w, 250 ≤ v ∧ v ≤ 4000) ∧ (∀ v ∈ g.channel, 1 ≤ v ∧ v ≤ 14)
    ∧ (∀ v ∈ g.tag, v ≤ 65535)

/-- A queued report as the intake leaves it (R33). -/
abbrev Report.Lawful (r : Report) : Prop :=
  1 ≤ r.duration ∧ r.duration ≤ 65535 ∧ r.centre ≤ 100 ∧ r.span.Lawful
    ∧ -100 ≤ r.level ∧ r.level ≤ -10

/-- The law of the span over the table, with what feeds it: the queued reports and the staged values. -/
abbrev State.SpanLaw (s : State) : Prop :=
  (∀ x ∈ s.table.slots, ∀ r ∈ x.record, r.SpanLawful) ∧ (∀ r ∈ s.intake.queue, r.Lawful)
    ∧ ∀ c ∈ s.cursor, c.staged.Lawful

/-! ### The law of the oven part (R9) -/

/-- P16 in its range while known and 0 while unknown, A16 0 while unknown, D and W in their ranges; a part
of unknown period has its phase known, since it was learned from a report (R14). A P16 kept for a rebase (R66) is in
its range. -/
abbrev OvenPart.Lawful (o : OvenPart) : Prop :=
  (if o.periodKnown then 256000 ≤ o.p16 ∧ o.p16 ≤ 336000 else o.p16 = 0 ∧ o.phaseKnown = true)
    ∧ (∀ p ∈ o.stood, 256000 ≤ p ∧ p ≤ 336000) ∧ (o.phaseKnown = false → o.a16 = 0)
    ∧ 1000 ≤ o.d ∧ o.d ≤ 15000 ∧ 250 ≤ o.w ∧ o.w ≤ 4000

abbrev State.OvenLaw (s : State) : Prop :=
  ∀ x ∈ s.table.slots, ∀ r ∈ x.record, ∀ o ∈ r.oven?, o.Lawful

/-! ### The law of loads: its shares (R70, R74) -/

abbrev Airtime.Lawful (a : Airtime) : Prop :=
  a.share ≤ 255 ∧ a.acc ≤ 100000 ∧ -100 ≤ a.level ∧ a.level ≤ -10

/-- Every airtime field in its range, with the queued reports that feed it. -/
abbrev State.AirtimeLaw (s : State) : Prop :=
  (∀ x ∈ s.table.slots, ∀ r ∈ x.record, ∀ a ∈ r.part.airtime?, a.Lawful)
    ∧ ∀ r ∈ s.intake.queue, r.Lawful

/-! ### The table's counts and the law of pinning (R3, R6) -/

/-- The number of slots in a state; FREE is none. -/
def Table.countOf (t : Table) (st : Option RecState) : Nat := t.slots.countP (fun x => x.state == st)

/-- The table-wide counts are those of the slots (R3). -/
abbrev Table.CountsLaw (t : Table) : Prop :=
  t.slots.length = 64 ∧ t.counts.free = t.countOf none
    ∧ t.counts.candidate = t.countOf (some .candidate) ∧ t.counts.tracked = t.countOf (some .tracked)
    ∧ t.counts.coasting = t.countOf (some .coasting) ∧ t.counts.retired = t.countOf (some .retired)
    ∧ t.pinned = t.slots.countP (fun x => x.pinnedOne == 1)

/-- A record of unknown period is a learned candidate, or one that was retired as a candidate; no pinned
record is a CANDIDATE (R6, R60). -/
abbrev Record.PinLawful (r : Record) : Prop :=
  (r.origin = .pinned → r.state ≠ .candidate)
    ∧ ∀ o ∈ r.oven?, o.periodKnown = false →
        r.origin = .learned ∧ (r.state = .candidate ∨ r.state = .retired)

/-- The counts, the law of pinning, and the cursor's slot within the table. -/
abbrev State.PinLaw (s : State) : Prop :=
  s.table.CountsLaw ∧ s.table.pinned ≤ 16 ∧ (∀ x ∈ s.table.slots, ∀ r ∈ x.record, r.PinLawful)
    ∧ ∀ c ∈ s.cursor, c.slot < 64

/-! ### The law of the RETIRED state and the cursor (R23, R180) -/

/-- The held record is the cursor's, the cursor's handle names its slot's record, and a RETIRED record is
held. -/
abbrev State.HeldLaw (s : State) : Prop :=
  s.table.slots.length = 64
    ∧ (∀ i < 64, ∀ r ∈ s.table.record i,
        r.held = decide (s.cursor.map (·.slot) = some i) ∧ (r.state = .retired → r.held = true))
    ∧ ∀ c ∈ s.cursor,
        c.slot < 64 ∧ (s.table.slot c.slot).gen = c.gen ∧ (s.table.record c.slot).isSome = true

/-! ### The law of the queues (R33, R85, R197) -/

/-- The key of an entry (R197). -/
def Entry.key (e : Entry) : NoticeKind × Subject := (e.kind, e.subject)

abbrev State.QueueLaw (s : State) : Prop :=
  s.intake.queue.length ≤ 32 ∧ s.predictor.queue.length ≤ 4 ∧ s.notices.entries.length ≤ 16
    ∧ (s.notices.entries.map Entry.key).Nodup
    ∧ ∀ e ∈ s.notices.entries, 1 ≤ e.count ∧ e.count ≤ 255

/-! ### The law of the clock notice (R203) -/

/-- ATTENTION is asserted exactly where an entry calls for it. -/
abbrev State.AttentionLaw (s : State) : Prop :=
  s.notices.attention = true ↔ s.notices.Calls s.params.attentionThreshold

/-! ### The chains (R109, R114) -/

/-- The row of R109 that a chain's state names. -/
abbrev ChainRec.Lawful (c : ChainRec) : Prop :=
  (c.present.isSome = true → c.state = .ready ∨ c.state = .retuning ∨ c.state = .dwell)
    ∧ (c.state = .ready ∨ c.state = .dwell → c.present.isSome = true)
    ∧ (c.target.isSome = true ↔ c.state = .retuning) ∧ (c.lockTimer.isSome = true ↔ c.state = .retuning)
    ∧ (c.dwellTimer.isSome = true ↔ c.state = .dwell)

/-- The channels that a chain uses: its present and its target channel. -/
def ChainRec.channels (c : ChainRec) : List Nat := c.present.toList ++ c.target.toList

/-- A present channel that a move has placed, as the record shows it: in DWELL, and in READY with origin ADVISOR
(SET CHANNEL makes the origin CONTROL, R117). -/
abbrev ChainRec.MovedTo (c : ChainRec) (ch : Nat) : Prop :=
  c.present = some ch ∧ (c.state = .dwell ∨ (c.state = .ready ∧ c.origin = .advisor))

/-- R109, the law of the two chains and the law of the channels in use (R114), and R112: while the lock is
clear the domain is A. -/
abbrev Radio.Lawful (r : Radio) : Prop :=
  r.chainA.Lawful ∧ r.chainB.Lawful
    ∧ (∀ ch ∈ r.chainA.channels, ch ∉ r.chainB.channels)
    ∧ (∀ ch ∈ r.chainA.channels ++ r.chainB.channels, r.domain.permits ch = true)
    ∧ (∀ ch ∈ r.chainA.target.toList ++ r.chainB.target.toList, r.tuneCode ch ≠ 0)
    ∧ (∀ ch ∈ r.chainA.present, r.chainA.MovedTo ch → r.tuneCode ch ≠ 0)
    ∧ (∀ ch ∈ r.chainB.present, r.chainB.MovedTo ch → r.tuneCode ch ≠ 0)
    ∧ (r.domainLock = false → r.domain = .A)

abbrev State.ChainLaw (s : State) : Prop := s.radio.Lawful

/-! ### Saturating counts and ranges (R7, R108, R133, R147, R174, R202) -/

abbrev Record.RangeLawful (r : Record) : Prop :=
  r.hits ≤ 255 ∧ r.idle ≤ 255 ∧ r.emptyStreak ≤ 255 ∧ r.age ≤ 255
    ∧ (r.kind ≠ .oven → r.emptyStreak = 0)

abbrev ChainRec.RangeLawful (c : ChainRec) : Prop := c.holdOff ≤ 255 ∧ c.streak ≤ 15

abbrev CostRow.RangeLawful (x : CostRow) : Prop := x.oven ≤ 255 ∧ x.network ≤ 255 ∧ x.cost ≤ 255

/-- The ranges of the parameter table (R174). -/
abbrev Params.RangeLawful (p : Params) : Prop :=
  (500 ≤ p.lockTimeout ∧ p.lockTimeout ≤ 10000) ∧ p.dwellTime ≤ 200 ∧ p.guardTime ≤ 1000
    ∧ (250 ≤ p.ovenTolerance ∧ p.ovenTolerance ≤ 4000) ∧ (2 ≤ p.ovenConfirm ∧ p.ovenConfirm ≤ 8)
    ∧ (1 ≤ p.neighbourConfirm ∧ p.neighbourConfirm ≤ 8) ∧ (1 ≤ p.steadyConfirm ∧ p.steadyConfirm ≤ 8)
    ∧ (2 ≤ p.candidateLimit ∧ p.candidateLimit ≤ 50) ∧ (10 ≤ p.ovenRetire ∧ p.ovenRetire ≤ 255)
    ∧ (10 ≤ p.neighbourRetire ∧ p.neighbourRetire ≤ 255) ∧ p.adviceMargin ≤ 255
    ∧ (1 ≤ p.advicePersist ∧ p.advicePersist ≤ 15) ∧ p.autoHoldoff ≤ 255 ∧ p.attentionThreshold ≤ 7

/-- The eleven kinds (R198). -/
def allNoticeKinds : List NoticeKind :=
  [.ovenConfirmed, .ovenRetired, .neighbourConfirmed, .neighbourRetired, .tableFull, .intakeOverflow,
    .clockFallback, .referencePresent, .moveDone, .moveFailed, .advice]

abbrev State.RangeLaw (s : State) : Prop :=
  (∀ x ∈ s.table.slots, ∀ r ∈ x.record, r.RangeLawful)
    ∧ s.radio.chainA.RangeLawful ∧ s.radio.chainB.RangeLawful
    ∧ s.advisor.costs.length = 14 ∧ (∀ x ∈ s.advisor.costs, x.RangeLawful)
    ∧ s.radio.tuneMap.length = 14 ∧ s.timebase.epochTimer < 100000
    ∧ s.params.RangeLawful ∧ ∀ k ∈ allNoticeKinds, s.notices.levels.level k ≤ 7

/-! ### The clock (R141, R147 to R150, R154) -/

/-- A reference that is ABSENT has no qualification, and in REFERENCE the reference is qualified. Work that is due at
an instant of the epoch is due while the epoch timer stands at it (R147). -/
abbrev Timebase.Lawful (t : Timebase) : Prop :=
  (t.refPresent = false ↔ t.qual = .idle) ∧ (t.clock = .reference → t.qual = .qualified)
    ∧ (t.clock = .internalStart → t.qual ≠ .qualified)
    ∧ t.epochTimer < 100000 ∧ (t.boundaryDue = true → t.epochTimer = 0)
    ∧ (t.midDue = true → t.epochTimer = 50000)

/-- The timebase is lawful, and an automatic move that is still to be taken was handed over at this mid-epoch
(R141). -/
abbrev State.ClockLaw (s : State) : Prop :=
  s.timebase.Lawful ∧ ∀ x ∈ [s.radio.chainA, s.radio.chainB], x.handed.isSome = true →
    s.timebase.epochTimer = 50000 ∧ s.timebase.midDue = false

/-! ### The link, the sweep and the engine (R164, R168, R88, R103, R192) -/

/-- What the link holds in each phase (R164). An exchange under way began in the present phase, or in an EXECUTION
that has ended in RESULT since (R161). -/
abbrev Link.Lawful (k : Link) : Prop :=
  (k.phase = .idle → k.code = none ∧ k.params = [] ∧ k.result = [])
    ∧ (k.phase ≠ .idle → k.code.isSome = true)
    ∧ (k.phase = .command → k.params.length < k.expected)
    ∧ (k.phase = .result → k.consumed < k.result.length)
    ∧ ∀ x ∈ k.begun, k.transaction ≠ .none
        ∧ (x.phase = k.phase ∨ (x.phase = .execution ∧ k.phase = .result))

/-- A sweep in its examination stands in EXECUTION of a SWEEP and has not stopped (R194). -/
abbrev Sweep.Lawful (w : Sweep) : Prop :=
  1 ≤ w.maximum ∧ w.maximum ≤ 8 ∧ w.found.length < w.maximum ∧ w.examined < 64 ∧ w.next < 64

/-- The engine serves the head of the queue, or the PREVIEW, and is IDLE only while no work waits (R88). -/
abbrev Predictor.Lawful (p : Predictor) : Prop :=
  (p.engine = .idle → p.queue = [] ∧ p.preview = none) ∧ ∀ client ∈ (match p.engine with
    | .idle => none
    | .evaluating client _ _ => some client : Option Client),
    (client = .scheduler → p.queue ≠ []) ∧ (client = .preview → p.preview.isSome = true)

abbrev State.LinkLaw (s : State) : Prop :=
  s.link.Lawful ∧ s.predictor.Lawful
    ∧ (s.sweep.isSome = true → s.link.phase = .execution ∧ s.link.code = some sweepCode)
    ∧ (∀ w ∈ s.sweep, w.Lawful)
    ∧ (s.predictor.preview.isSome = true →
        s.link.phase = .execution ∧ s.link.code = some previewCode)

end Sys2Proof.Machine
end

