-- ==== Sys2Proof/Certificates/Slice0/Obligations.lean ====
section
/-! DEFINITION. The statements for the provers, chapter by chapter. A result that a statement gives as an
equation with the whole next state says the frame as well: what the equation does not change is
unchanged. -/

open Sys2Proof Sys2Proof.Machine

/-! ### The queue of commands -/

/-- A step with a command at the front of the queue is that command on the state with the queue's rest. -/
def Obligations.StepRunsFrontCommand : Prop :=
  ∀ (s : State) (c : Instr) (rest : List Instr), s.pending = c :: rest →
    step s = exec c { s with pending := rest }

/-- Every command answers a next state, and none touches the queue of commands. For a row whose cause does not stand
in the state this is the model's choice (log entry 1), and so it is that POWER_ON_RESET keeps the queue (log entry
22). -/
def Obligations.CommandsAnswerNextAndKeepQueue : Prop :=
  ∀ (c : Instr) (s : State), ∃ t, exec c s = .next t ∧ t.pending = s.pending

/-! ### Resets -/

/-- POWER_ON_RESET leaves the power-on values of R28, R38, R107, R131, R133, R159, R162, R164, R174, R180 and
R206 in every block, and State.reset is such a state. The lines that the outside drives keep their levels
(log entries 9 and 12 for what State.reset holds of them; entry 22 for the link's own `entered` and `begun`). -/
def Obligations.PowerOnResetValues : Prop :=
  exec .powerOnReset State.reset = .next State.reset ∧
  ∀ s : State, ∃ t, exec .powerOnReset s = .next t
    ∧ t.table.slots.length = 64 ∧ (∀ i < 64, t.table.slot i = ⟨0, none⟩)
    ∧ t.table.seqCounter = 0 ∧ t.table.pinned = 0
    ∧ t.table.counts = { free := 64, candidate := 0, tracked := 0, coasting := 0, retired := 0 }
    ∧ t.intake = { queue := [], blindThrough := .none, notReadySeen := !s.intake.detectorReady,
                   detectorReady := s.intake.detectorReady, engine := .waiting }
    ∧ t.predictor =
        { queue := [], preview := none, engine := .idle, answers := [], answerLines := [] }
    ∧ (∀ c, t.chain c =
        { state := .unset, present := none, target := none, origin := .control, lockTimer := none,
          dwellTimer := none, holdOff := 255, auto := false, streak := 0, lastAdvised := none, handed := none,
          tuneOut := 0, strobes := (s.chain c).strobes, lockIn := (s.chain c).lockIn })
    ∧ t.radio.tuneMap = List.replicate 14 0 ∧ t.radio.domain = .A ∧ t.radio.domainLock = false
    ∧ t.advisor = { costs := List.replicate 14 { oven := 0, network := 0, cost := 0 },
                    costed := false }
    ∧ t.timebase = { time := 0, epochTimer := 0, boundaryDue := false, midDue := false,
                     clock := .internalStart, refPresent := false, qual := .idle }
    ∧ t.link = { transaction := if s.link.transaction = .none then .none else .status,
                 phase := .idle, code := none, expected := 0, params := [], result := [],
                 consumed := 0, entered := 0, begun := none, miso := none }
    ∧ t.cursor = none ∧ t.sweep = none ∧ t.notices.entries = [] ∧ t.notices.attention = false
    ∧ allNoticeKinds.map t.notices.levels.level = [4, 3, 2, 1, 5, 5, 7, 3, 4, 6, 3]
    ∧ t.params =
        { lockTimeout := 2000, dwellTime := 20, guardTime := 200, ovenTolerance := 1500,
          ovenConfirm := 3, neighbourConfirm := 2, steadyConfirm := 3, candidateLimit := 5,
          ovenRetire := 50, neighbourRetire := 200, adviceMargin := 40, advicePersist := 3,
          autoHoldoff := 100, attentionThreshold := 0 }

/-- RESET executes: each block takes its soft-reset values, the queued queries are answered REFUSED in
order, and the timebase, the parameters, the levels, the tune map and the tune outputs are kept, and so is an automatic
move not yet taken (R132). That the query in evaluation is answered REFUSED and never NOT_READY is the model's choice
(log entry 33). -/
def Obligations.SoftResetValues : Prop :=
  ∀ s : State, s.Executing 0x02 [] → ∃ t, exec .reset s = .next t
    ∧ t.table.slots.length = s.table.slots.length
    ∧ (∀ i < s.table.slots.length, t.table.slot i =
        if (s.table.record i).isSome then ⟨(s.table.slot i).gen + 1, none⟩
        else s.table.slot i)
    ∧ t.table.seqCounter = 0 ∧ t.table.pinned = 0
    ∧ t.table.counts = { free := 64, candidate := 0, tracked := 0, coasting := 0, retired := 0 }
    ∧ t.intake = { queue := [], blindThrough := .none, notReadySeen := !s.intake.detectorReady,
                   detectorReady := s.intake.detectorReady, engine := .waiting }
    ∧ t.predictor =
        { queue := [], preview := none, engine := .idle, answerLines := s.predictor.answerLines,
          answers := s.predictor.answers ++ s.predictor.queue.map (fun q =>
            { tag := q.tag, status := .refused, startOffset := 0, freeLength := 0, grade := 0 }) }
    ∧ (∀ c, t.chain c =
        { state := .unset, present := none, target := none, origin := .control, lockTimer := none,
          dwellTimer := none, holdOff := 255, auto := false, streak := 0, lastAdvised := none,
          handed := (s.chain c).handed,
          tuneOut := (s.chain c).tuneOut, strobes := (s.chain c).strobes,
          lockIn := (s.chain c).lockIn })
    ∧ t.radio.tuneMap = s.radio.tuneMap ∧ t.radio.domain = .A ∧ t.radio.domainLock = false
    ∧ t.advisor = { costs := List.replicate 14 { oven := 0, network := 0, cost := 0 },
                    costed := false }
    ∧ t.notices = { entries := [], levels := s.notices.levels, attention := false }
    ∧ t.link = { s.link with phase := .result, result := [0x00], consumed := 0 }
    ∧ t.cursor = none ∧ t.sweep = none ∧ t.timebase = s.timebase ∧ t.params = s.params
    ∧ t.freeCount = s.freeCount

/-! ### Burst intake -/

/-- A report of an assigned signature and a duration above 0 is stamped with its start, clamped, and given
its span (R30, R31). It joins a queue of fewer than 32; at a full queue it overflows: blind-through becomes
NEXT and INTAKE_OVERFLOW is raised (R33 to R35). -/
def Obligations.ReportArrivalQueuesOrOverflows : Prop :=
  ∀ (s : State) (sig a1 a0 d1 d0 c w l t1 t0 : Byte) (more : List Byte) (kind : Signature),
    (sig = 0x01 ∧ kind = .preamble (BitVec.ofNat 16 (t1.toNat * 256 + t0.toNat))
      ∨ sig = 0x02 ∧ kind = .swept ∨ sig = 0x03 ∧ kind = .steady) →
    d1.toNat * 256 + d0.toNat ≠ 0 →
    ∃ r : Report,
      r.start = s.now - BitVec.ofNat 32 ((a1.toNat * 256 + a0.toNat) % 4096)
      ∧ r.duration = d1.toNat * 256 + d0.toNat
      ∧ r.centre = min 100 (c.toNat % 128)
      ∧ (r.span.lo : Int) = max 0 ((2 * (r.centre : Int) - max 1 (min 40 (w.toNat % 64) : Nat)) / 2)
      ∧ r.span.hi = min 100 ((2 * r.centre + max 1 (min 40 (w.toNat % 64)) + 1) / 2)
      ∧ r.level = max (-100) (min (-10) l.toInt) ∧ r.signature = kind
      ∧ (s.intake.queue.length < 32 →
          exec (.reportArrival (sig :: a1 :: a0 :: d1 :: d0 :: c :: w :: l :: t1 :: t0 :: more)) s
            = .next { s with intake := { s.intake with queue := s.intake.queue ++ [r] } })
      ∧ (32 ≤ s.intake.queue.length →
          exec (.reportArrival (sig :: a1 :: a0 :: d1 :: d0 :: c :: w :: l :: t1 :: t0 :: more)) s
            = .next (State.raise { s with intake := { s.intake with blindThrough := .next } }
                .intakeOverflow .none .none))

/-- What changes nothing at the ports: the frames that a port discards (R209, R210), and a report of duration 0
or of an unassigned signature (R32). A deassertion of DETECTOR READY sets not-ready-seen, and a reassertion
leaves it (R35). A LOCK row without a change of the line's level changes nothing (log entry 13). -/
def Obligations.PortLinesAndDiscards : Prop :=
  ∀ s : State,
    (∀ bytes : List Byte, bytes.length < 10 → exec (.detectorFrameDiscarded bytes) s = .next s)
    ∧ (∀ bytes : List Byte, bytes.length < 8 → exec (.schedulerFrameDiscarded bytes) s = .next s)
    ∧ (∀ (sig a1 a0 d1 d0 c w l t1 t0 : Byte) (more : List Byte),
      d1.toNat * 256 + d0.toNat = 0 ∨ (sig ≠ 0x01 ∧ sig ≠ 0x02 ∧ sig ≠ 0x03) →
      exec (.reportArrival (sig :: a1 :: a0 :: d1 :: d0 :: c :: w :: l :: t1 :: t0 :: more)) s = .next s)
    ∧ exec .detectorReadyDeasserted s =
        .next { s with intake := { s.intake with detectorReady := false, notReadySeen := true } }
    ∧ exec .detectorReadyAsserted s =
        .next { s with intake := { s.intake with detectorReady := true } }
    ∧ (∀ c, (s.chain c).lockIn = true → exec (.lockAsserted c) s = .next s)
    ∧ (∀ c, (s.chain c).lockIn = false → exec (.lockDeasserted c) s = .next s)

/-! ### The association engine -/

/-- A PREAMBLE report reaches the lowest live NEIGHBOUR of its tag and derived channel (R47, R48), and a
STEADY report the live STEADY record of widest overlap, with its span union (R49, R50). The airtime update is
applied to that record alone, and the confirmation check follows (R71 to R73). The derived channel is the centre
less 7 over 5, to the nearest integer with a tie toward +∞, within 1 to 14 (R47). -/
def Obligations.NetworkReportUpdatesItsRecord : Prop :=
  (∀ centre : Nat,
    let ch := derivedChannel centre
    1 ≤ ch ∧ ch ≤ 14
    ∧ (ch ≠ 1 → 10 * (ch : Int) - 5 ≤ 2 * ((centre : Int) - 7))
    ∧ (ch ≠ 14 → 2 * ((centre : Int) - 7) < 10 * (ch : Int) + 5))
  ∧ ∀ (s : State) (rep : Report) (rest : List Report) (i : Nat) (r : Record) (a : Airtime),
    s.Takes rep rest → (i, r) ∈ s.table.records → r.part.airtime? = some a →
    let hit : Airtime := { share := a.share, acc := min 100000 (a.acc + rep.duration),
                           level := a.level + roundDiv (rep.level - a.level) 4 }
    (∀ tag, rep.signature = .preamble tag → r.Named tag (derivedChannel rep.centre) →
      (∀ y ∈ s.table.records, y.2.Named tag (derivedChannel rep.centre) → i ≤ y.1) →
      exec .takeReport s = .next (State.confirm ((s.taken rest).putRecord i
        { r.countHit with part := .neighbour tag (derivedChannel rep.centre) hit }) i))
    ∧ (rep.signature = .steady → r.SteadyOver rep →
      (∀ y ∈ s.table.records, y.2.SteadyOver rep →
        y.2.span.overlapWidth rep.span < r.span.overlapWidth rep.span
          ∨ (y.2.span.overlapWidth rep.span = r.span.overlapWidth rep.span ∧ i ≤ y.1)) →
      exec .takeReport s = .next (State.confirm ((s.taken rest).putRecord i
        { r.countHit with span := r.span.unionWith rep.span, part := .steady hit }) i))

/-- Step 1 of the swept order: of the rhythmic ovens that pass the phase match test, the one of smallest
error, the lower slot among equals, takes the hit update of R56 to R60, and no other record changes (R41). -/
def Obligations.SweptReportUpdatesNearestOven : Prop :=
  ∀ (s : State) (rep : Report) (rest : List Report) (i : Nat) (r : Record) (o : OvenPart),
    s.Takes rep rest → rep.signature = .swept → (i, r) ∈ s.table.records → r.part = .oven o →
    r.Rhythmic o rep → s.Passes rep r o →
    (∀ y ∈ s.table.records, ∀ p ∈ y.2.oven?, y.2.Rhythmic p rep → s.Passes rep y.2 p →
      o.errorOf rep < p.errorOf rep ∨ (o.errorOf rep = p.errorOf rep ∧ i ≤ y.1)) →
    let m := o.phaseMatch (to16 rep.start)
    exec .takeReport s = .next (State.confirm ((s.taken rest).putRecord i
      { r.countHit with
        span := r.span.unionWith rep.span
        part := .oven { o with
          a16 := m.p16 + BitVec.ofInt 36 (Int.tdiv m.e16 4)
          p16 := if 1 ≤ m.k ∧ r.origin = .learned then
              (max 256000 (min 336000 ((o.p16 : Int) + Int.tdiv m.e16 (8 * m.k)))).toNat
            else o.p16
          d := (max 1000 (min 15000 ((o.d : Int) + roundDiv ((rep.duration : Int) - o.d) 8))).toNat } }) i)

/-- Step 2 of the swept order: a report that no rhythmic oven matches and one absorbs changes nothing but the
queue (R42). Step 3: the lowest pinned oven of unknown phase takes the start as its anchor and counts a hit (R43).
Step 4: the oldest candidate of unknown period merges, gains its period, or re-anchors, by the interval alone
(R44, R62, R63). -/
def Obligations.SweptReportIsAbsorbedOrAcquires : Prop :=
  ∀ (s : State) (rep : Report) (rest : List Report) (i : Nat) (r : Record) (o : OvenPart),
    s.Takes rep rest → rep.signature = .swept → (i, r) ∈ s.table.records → r.part = .oven o →
    let known (p : Nat) : State := State.confirm ((s.taken rest).putRecord i
      { r.countHit with
        part := .oven { o with periodKnown := true, p16 := p, a16 := to16 rep.start } }) i
    let reanchored : State := (s.taken rest).putRecord i
      { r with part := .oven { o with a16 := to16 rep.start } }
    (s.Unmatched rep → r.Rhythmic o rep → s.Absorbs rep r o →
      exec .takeReport s = .next (s.taken rest))
    ∧ (s.Unsettled rep → r.Phaseless o rep →
      (∀ y ∈ s.table.records, ∀ p ∈ y.2.oven?, y.2.Phaseless p rep → i ≤ y.1) →
      exec .takeReport s = .next ((s.taken rest).putRecord i
        { r.countHit with part := .oven { o with a16 := to16 rep.start, phaseKnown := true } }))
    ∧ (∀ n : Int, s.Unacquired rep → r.Periodless o rep →
      (∀ y ∈ s.table.records, ∀ p ∈ y.2.oven?, y.2.Periodless p rep →
        s.table.seniority y.2 < s.table.seniority r
          ∨ (s.table.seniority y.2 = s.table.seniority r ∧ i ≤ y.1)) →
      (to16 rep.start - o.a16).toInt = 16 * n →
      exec .takeReport s = .next
        (if n < 16000 then s.taken rest
         else if n ≤ 21000 then known (16 * n).toNat
         else if n < 32000 then reanchored
         else if n ≤ 42000 then known (8 * n).toNat
         else if n < 48000 then reanchored
         else if n ≤ 63000 then known (roundDiv (16 * n) 3).toNat
         else reanchored))

/-- A report that no step before settles creates a record of its kind with the values of R45, R48 or R50. -/
def Obligations.UnsettledReportCreates : Prop :=
  ∀ (s : State) (rep : Report) (rest : List Report), s.Takes rep rest →
    (rep.signature = .swept → s.Unacquired rep →
      (∀ y ∈ s.table.records, ∀ p ∈ y.2.oven?, ¬ y.2.Periodless p rep) →
      250 ≤ s.params.ovenTolerance → s.params.ovenTolerance ≤ 4000 →
      exec .takeReport s = .next (State.create (s.taken rest) rep.span
        (.oven { periodKnown := false, p16 := 0, phaseKnown := true, a16 := to16 rep.start,
                 d := max 1000 (min 15000 rep.duration), w := s.params.ovenTolerance })))
    ∧ (∀ tag, rep.signature = .preamble tag →
      (∀ y ∈ s.table.records, ¬ y.2.Named tag (derivedChannel rep.centre)) →
      exec .takeReport s = .next (State.create (s.taken rest) (channelSpan (derivedChannel rep.centre))
        (.neighbour tag (derivedChannel rep.centre)
          { share := 0, acc := rep.duration, level := rep.level })))
    ∧ (rep.signature = .steady → (∀ y ∈ s.table.records, ¬ y.2.SteadyOver rep) →
      exec .takeReport s = .next (State.create (s.taken rest) rep.span
        (.steady { share := 0, acc := rep.duration, level := rep.level })))

/-- Creation takes the lowest FREE slot; in a full table it evicts the oldest unheld candidate, silently;
where none can be had, the table stays as it was and TABLE_FULL is raised (R12 to R14). -/
def Obligations.CreationTakesASlot : Prop :=
  ∀ (s : State) (span : Span) (part : Part),
    let born : Record :=
      { part := part, state := .candidate, origin := .learned, held := false, span := span, hits := 1,
        idle := 0, emptyStreak := 0, hitFlag := true, age := 0, seq := s.table.seqCounter }
    (∀ i, s.table.LowestFree i → ∃ t : Table, s.create span part = { s with table := t }
      ∧ t.slot i = ⟨(s.table.slot i).gen, some born⟩
      ∧ (∀ j, j ≠ i → t.slot j = s.table.slot j) ∧ t.seqCounter = s.table.seqCounter + 1
      ∧ t.pinned = s.table.pinned
      ∧ t.counts = { s.table.counts with free := s.table.counts.free - 1,
                                         candidate := s.table.counts.candidate + 1 })
    ∧ ((∀ x ∈ s.table.slots, x.record.isSome = true) →
      (∀ i r, s.table.OldestCandidate i r → 1 ≤ s.table.counts.candidate →
        ∃ t : Table, s.create span part = { s with table := t }
          ∧ t.slot i = ⟨(s.table.slot i).gen + 1, some born⟩
          ∧ (∀ j, j ≠ i → t.slot j = s.table.slot j) ∧ t.seqCounter = s.table.seqCounter + 1
          ∧ t.counts = s.table.counts ∧ (r.origin = .learned → t.pinned = s.table.pinned))
      ∧ ((∀ y ∈ s.table.records, y.2.state = .candidate → y.2.held = true) →
        s.create span part = s.raise .tableFull .none .none))

/-- The phase match test names the nearest predicted start, a tie going to the earlier one: the error is
the distance from it and lies above minus half a period and at or below half a period; the
report passes where its magnitude is within the tolerance (R54). -/
def Obligations.PhaseMatchNamesNearestStart : Prop :=
  ∀ (o : OvenPart) (s16 : Time16), 256000 ≤ o.p16 → o.p16 ≤ 336000 →
    let m := o.phaseMatch s16
    m.p16 = o.a16 + BitVec.ofInt 36 (m.k * o.p16)
      ∧ m.e16 = (s16 - o.a16).toInt - m.k * o.p16
      ∧ -(o.p16 : Int) < 2 * m.e16 ∧ 2 * m.e16 ≤ o.p16
      ∧ ∀ tolerance : Nat, m.passes tolerance = true ↔ (m.e16.natAbs : Int) ≤ tolerance * 16

/-- The union of two lawful spans is kept where its width is at most 40; otherwise the report has extended
exactly one edge, that edge is kept, and the other is moved inward (R46). The result is lawful (R8). -/
def Obligations.SpanUnionKeepsTheExtendedEdge : Prop :=
  ∀ x y : Span, x.Lawful → y.Lawful →
    (x.unionWith y).Lawful
    ∧ (max x.hi y.hi - min x.lo y.lo ≤ 40 →
        x.unionWith y = { lo := min x.lo y.lo, hi := max x.hi y.hi })
    ∧ (40 < max x.hi y.hi - min x.lo y.lo →
        (y.lo < x.lo ∧ y.hi ≤ x.hi ∧ x.unionWith y = { lo := y.lo, hi := y.lo + 40 })
        ∨ (x.lo ≤ y.lo ∧ x.hi < y.hi ∧ x.unionWith y = { lo := y.hi - 40, hi := y.hi }))

/-- The confirmation check: a candidate that satisfies its kind's condition enters TRACKED with its counters
at 0, and its notice names its handle; otherwise nothing changes (R15, R16). -/
def Obligations.ConfirmationFollowsTheKind : Prop :=
  ∀ (s : State) (i : Nat) (r : Record), s.table.record i = some r →
    let satisfied : Prop :=
      (∃ o, r.part = .oven o ∧ o.periodKnown = true ∧ s.params.ovenConfirm ≤ r.hits)
        ∨ (r.kind = .neighbour ∧ s.params.neighbourConfirm ≤ r.hits)
        ∨ (r.kind = .steady ∧ s.params.steadyConfirm ≤ r.hits)
    (r.state = .candidate → satisfied →
      s.confirm i = (s.putRecord i
        { r with state := .tracked, idle := 0, emptyStreak := 0, age := 0 }).raise
          (if r.kind = .oven then .ovenConfirmed else .neighbourConfirmed)
          (.handle i (s.table.slot i).gen) .none)
    ∧ (r.state ≠ .candidate ∨ ¬ satisfied → s.confirm i = s)

/-! ### The epoch boundary -/

/-- EPOCH_BOUNDARY at its instant, the next at which the part's own work is due: time passes to the boundary, where
the epoch timer restarts (R147), the blind state turns over (R36), both hold-offs increment (R127), and only the
timebase, the table, the intake, the chains, the notices and the model's free count change. Where an instant before
the boundary has its work still to be taken, the boundary has not come and the state is left (log entry 7). -/
def Obligations.BoundaryTurnsEveryBlockOver : Prop :=
  ∀ s : State, s.timebase.epochTimer < 100000 →
    let n := if s.timebase.boundaryDue then 0 else 100000 - s.timebase.epochTimer
    (¬ s.Reaches n → exec .epochBoundary s = .next s)
    ∧ (s.Reaches n → ∃ t, exec .epochBoundary s = .next t
      ∧ t.timebase = { s.timebase with
          time := s.now + BitVec.ofNat 32 n
          epochTimer := if s.timebase.boundaryDue then s.timebase.epochTimer else 0
          boundaryDue := false }
      ∧ t.intake = { s.intake with
          blindThrough := if s.intake.blindThrough = .next then .current else .none
          notReadySeen := !s.intake.detectorReady }
      ∧ (∀ c, t.chain c = { s.chain c with holdOff := min 255 ((s.chain c).holdOff + 1) })
      ∧ t.radio.tuneMap = s.radio.tuneMap ∧ t.radio.domain = s.radio.domain
      ∧ t.radio.domainLock = s.radio.domainLock ∧ t.table.seqCounter = s.table.seqCounter
      ∧ t = { s with timebase := t.timebase, table := t.table, intake := t.intake, radio := t.radio,
                     notices := t.notices, freeCount := t.freeCount })

/-- Aging at a boundary that is reached (R17 to R22). FREE and RETIRED slots are passed over. Of a TRACKED or
COASTING record: a heard one is refreshed, a silent one counts, one of a blind epoch keeps its counters; then it may
fall to COASTING, and a learned one at its limit retires, after a blind epoch as after any other. Of a candidate: its
age increments, blind or not, and at CANDIDATE_LIMIT it expires, heard or not. What retires or expires is freed with
the generation incremented, or is left in RETIRED while held, with the part from before or after the boundary's own
update (R23, R66, log entry 4). Each retirement raises its kind's notice with the handle as it stood before it, in an
order the manual leaves open (R20, log entry 5), and an expiry raises none (R21). Time passes as in log entry 7. -/
def Obligations.AgingOfLiveRecords : Prop :=
  ∀ s : State, s.timebase.epochTimer < 100000 →
    s.Reaches (if s.timebase.boundaryDue then 0 else 100000 - s.timebase.epochTimer) →
    let blind : Bool := s.intake.blindThrough != .none || s.intake.notReadySeen
    let idle (r : Record) : Nat :=
      if blind then r.idle else if r.hitFlag then 0 else min 255 (r.idle + 1)
    let streak (r : Record) : Nat :=
      if blind then r.emptyStreak else if r.hitFlag then 0
      else if r.kind = .oven then min 255 (r.emptyStreak + 1) else r.emptyStreak
    let age (r : Record) : Nat := min 255 (r.age + 1)
    let silent (r : Record) : Prop := if r.kind = .oven then 2 ≤ streak r else 10 ≤ idle r
    let coasts (r : Record) : Prop :=
      (r.state = .coasting ∧ (blind = true ∨ r.hitFlag = false)) ∨ (r.state = .tracked ∧ silent r)
    let limit (r : Record) : Nat :=
      if r.kind = .oven then s.params.ovenRetire else s.params.neighbourRetire
    let retires (r : Record) : Prop := coasts r ∧ r.origin = .learned ∧ limit r ≤ idle r
    ∃ t, exec .epochBoundary s = .next t
    ∧ (∀ i, s.table.record i = none → t.table.slot i = s.table.slot i)
    ∧ (∀ i r, s.table.record i = some r →
      let part := r.part.closed (to16 t.now)
      let counted : Record := { r with idle := idle r, emptyStreak := streak r }
      let stays (q : Record) : Prop :=
        t.table.slot i = ⟨(s.table.slot i).gen, some { q with part := part, hitFlag := false }⟩
      let leaves (q : Record) : Prop :=
        (r.held = false → t.table.slot i = ⟨(s.table.slot i).gen + 1, none⟩)
        ∧ (r.held = true → ∃ p, (p = r.part ∨ p = part)
            ∧ t.table.slot i = ⟨(s.table.slot i).gen, some { q with part := p, state := .retired }⟩)
      (r.state = .retired → t.table.slot i = s.table.slot i)
      ∧ (r.state = .tracked ∨ r.state = .coasting →
        (¬ coasts r → stays { counted with state := .tracked })
        ∧ (coasts r → ¬ retires r → stays { counted with state := .coasting })
        ∧ (retires r → leaves counted))
      ∧ (r.state = .candidate →
        (age r < s.params.candidateLimit → stays { counted with age := age r })
        ∧ (s.params.candidateLimit ≤ age r → leaves { counted with age := age r })))
    ∧ ∃ l : List (Nat × NoticeKind), (l.map (·.1)).Nodup
      ∧ (∀ i k, (i, k) ∈ l ↔ ∃ r, s.table.record i = some r ∧ retires r
          ∧ k = if r.kind = .oven then .ovenRetired else .neighbourRetired)
      ∧ t.notices = (l.foldl
          (fun u x => u.raise x.2 (.handle x.1 (s.table.slot x.1).gen) .none) s).notices

/-- What a boundary does to a part. The rebase moves an anchor by whole periods to the last predicted start
at or before the boundary, the period being P16, or the one that stood before a commit of P which falls together with
the boundary and is taken first (R65, R66; what falls together is log entry 31's, and `former` and `stood` are its
fields). The share moves an eighth of the way to the sample and lies between the two;
the accumulator starts again (R74). -/
def Obligations.BoundaryClosesParts : Prop :=
  (∀ (o : OvenPart) (now16 : Time16), o.periodKnown = true → o.phaseKnown = true →
    let p16 := o.stood.getD o.p16
    let moved (a16 : Time16) : OvenPart :=
      { o with a16 := a16, former := some { before := o.a16, after := a16 }, stood := none }
    (256000 ≤ p16 → p16 ≤ 336000 → 0 ≤ (now16 - o.a16).toInt →
      ∃ (m : Nat) (a16 : Time16), (Part.oven o).closed now16 = .oven (moved a16)
        ∧ a16 = o.a16 + BitVec.ofNat 36 (m * p16)
        ∧ 0 ≤ (now16 - a16).toInt ∧ (now16 - a16).toInt < p16)
    ∧ ((now16 - o.a16).toInt < 0 → (Part.oven o).closed now16 = .oven (moved o.a16)))
  ∧ (∀ (o : OvenPart) (now16 : Time16), o.periodKnown = false ∨ o.phaseKnown = false →
    (Part.oven o).closed now16 = .oven { o with former := none, stood := none })
  ∧ (∀ (a : Airtime) (now16 : Time16), a.Lawful →
    let sample := min 255 (a.acc * 256 / 100000)
    ∃ share : Nat, (Part.steady a).closed now16 = .steady { share := share, acc := 0, level := a.level }
      ∧ (∀ tag ch, (Part.neighbour tag ch a).closed now16 =
          .neighbour tag ch { share := share, acc := 0, level := a.level })
      ∧ (share : Int) = a.share + roundDiv ((sample : Int) - a.share) 8
      ∧ min a.share sample ≤ share ∧ share ≤ max a.share sample)

/-! ### The channel advisor -/

/-- MID_EPOCH at its instant, the next at which the part's own work is due: time passes to mid-epoch (R147). It costs
every channel, those of the domain from the loads of R77 and R79 and the others at 0 (R134), and then evaluates each
chain (R136 to R139): the streak, its completion with the last advised channel, the automatic move handed to the
controller (R140), and one ADVICE for each chain whose streak completes, in either order where both do (log entry 6). Where an instant before
mid-epoch has its work still to be taken, mid-epoch has not come and the state is left (log entry 7). -/
def Obligations.MidEpochCostsAndAdvises : Prop :=
  ∀ s : State, s.timebase.epochTimer < 100000 →
    let n := if s.timebase.midDue then 0
      else (if s.timebase.epochTimer < 50000 then 50000 else 150000) - s.timebase.epochTimer
    (¬ s.Reaches n → exec .midEpoch s = .next s)
    ∧ (s.Reaches n → ∃ t, exec .midEpoch s = .next t
    ∧ t.timebase = { s.timebase with
        time := s.now + BitVec.ofNat 32 n, epochTimer := s.timebase.epochTimer + n, midDue := false }
    ∧ t.advisor.costed = true ∧ t.advisor.costs.length = 14
    ∧ (∀ ch, 1 ≤ ch → ch ≤ 14 →
        let lo := if ch = 14 then 74 else 5 * ch - 3
        let hi := if ch = 14 then 94 else 5 * ch + 17
        t.advisor.costs[ch - 1]? = some
          (if ch ≤ s.radio.domain.highest then
            { oven := s.table.ovensIn lo hi, network := s.table.networkIn lo hi,
              cost := min 255 (s.table.ovensIn lo hi + s.table.networkIn lo hi) }
           else { oven := 0, network := 0, cost := 0 }))
    ∧ (let streak (c : Chain) (p : Nat) : Nat :=
        if s.params.adviceMargin + t.advisor.costAt (t.bestChannel c p) ≤ t.advisor.costAt p then
          min 15 ((s.chain c).streak + 1) else 0
      let serves (c : Chain) (p : Nat) : Prop :=
        (s.chain c).state = .ready ∧ (s.chain c).present = some p
      let advises (c : Chain) (best : Nat) : Prop :=
        ∃ p, serves c p ∧ s.params.advicePersist ≤ streak c p ∧ best = t.bestChannel c p
      (∀ c, (s.chain c).state ≠ .ready ∨ (s.chain c).present = none →
          t.chain c = { s.chain c with streak := 0 })
      ∧ (∀ c p, serves c p → streak c p < s.params.advicePersist →
          t.chain c = { s.chain c with streak := streak c p })
      ∧ (∀ c p, serves c p → s.params.advicePersist ≤ streak c p →
          t.chain c = { s.chain c with
            streak := 0, lastAdvised := some (t.bestChannel c p)
            handed := if (s.chain c).auto = true ∧ s.params.autoHoldoff ≤ (s.chain c).holdOff then
              some (t.bestChannel c p) else (s.chain c).handed })
      ∧ ((∀ c best, ¬ advises c best) → t.notices = s.notices)
      ∧ (∀ c best, advises c best → (∀ x, ¬ advises (otherChain c) x) →
          t.notices = (State.raise s .advice (.chain c) (.advice best)).notices)
      ∧ (∀ a b, advises .A a → advises .B b →
          ∃ c x y, ((c = .A ∧ x = a ∧ y = b) ∨ (c = .B ∧ x = b ∧ y = a))
            ∧ t.notices = ((s.raise .advice (.chain c) (.advice x)).raise .advice
                (.chain (otherChain c)) (.advice y)).notices))
    ∧ t.radio.tuneMap = s.radio.tuneMap ∧ t.radio.domain = s.radio.domain
    ∧ t.radio.domainLock = s.radio.domainLock
    ∧ t = { s with timebase := t.timebase, advisor := t.advisor, radio := t.radio,
                   notices := t.notices, freeCount := t.freeCount })

/-- The best channel of a chain whose present channel qualifies: permitted, not used by the other chain, of
lowest cost, then nearest to the present channel, then of lowest number (R137). -/
def Obligations.BestChannelIsCheapestNearestLowest : Prop :=
  ∀ (s : State) (c : Chain) (p : Nat),
    let qualifies (ch : Nat) : Prop := 1 ≤ ch ∧ ch ≤ s.radio.domain.highest
      ∧ (s.chain (otherChain c)).present ≠ some ch ∧ (s.chain (otherChain c)).target ≠ some ch
    let cost (ch : Nat) := s.advisor.costAt ch
    let far (ch : Nat) : Nat := ((ch : Int) - p).natAbs
    qualifies p →
      qualifies (s.bestChannel c p) ∧ ∀ ch, qualifies ch →
        cost (s.bestChannel c p) < cost ch
          ∨ (cost (s.bestChannel c p) = cost ch
              ∧ (far (s.bestChannel c p) < far ch
                  ∨ (far (s.bestChannel c p) = far ch ∧ s.bestChannel c p ≤ ch)))

/-! ### The radio chains -/

/-- A MOVE, a STEP to another channel and an automatic move that pass the checks of R114 start the move of
R115: RETUNING toward the channel, its tune code driven with one strobe, and the lock timer started. A STEP to
the present channel moves nothing, and neither its tune code nor the other chain is looked at (R116). The strobe is
the model's own count (log entry 12), and an automatic move waits at its chain until it is taken (log entry 15). -/
def Obligations.MovesStart : Prop :=
  (∀ (s : State) (c : Chain) (b : Byte) (p : Nat), s.Executing 0x21 [chainByte c, b] →
    (s.chain c).state ≠ .retuning → (s.chain c).state ≠ .dwell → (s.chain c).present = some p →
    let step := max (-13) (min 13 b.toInt)
    let target := max 1 (min (s.radio.domain.highest : Int) (p + step))
    target = p → exec .step s = .next (s.finish
      [if b.toInt = step ∧ p + step = target then 0x00 else 0x80, BitVec.ofNat 8 p]))
  ∧ ∀ (s : State) (c : Chain) (ch : Nat),
    1 ≤ ch → ch ≤ s.radio.domain.highest →
    (s.chain c).state = .unset ∨ (s.chain c).state = .ready ∨ (s.chain c).state = .fault →
    (s.chain (otherChain c)).present ≠ some ch → (s.chain (otherChain c)).target ≠ some ch →
    s.radio.tuneCode ch ≠ 0 →
    let moved (origin : MoveOrigin) : ChainRec :=
      { s.chain c with
        state := .retuning, target := some ch, origin := origin
        lockTimer := some (s.now + BitVec.ofNat 32 s.params.lockTimeout)
        tuneOut := s.radio.tuneCode ch, strobes := (s.chain c).strobes + 1 }
    (∀ b, s.Executing 0x20 [chainByte c, b] → b.toNat = ch →
      exec .move s = .next ((s.setChain c (moved .control)).finish [0x00]))
    ∧ (∀ (b : Byte) (p : Nat), s.Executing 0x21 [chainByte c, b] → (s.chain c).present = some p →
      let step := max (-13) (min 13 b.toInt)
      let target := max 1 (min (s.radio.domain.highest : Int) (p + step))
      let first : Byte := if b.toInt = step ∧ p + step = target then 0x00 else 0x80
      target = ch →
      exec .step s = .next
        (if ch = p then s.finish [first, BitVec.ofNat 8 ch]
         else (s.setChain c (moved .control)).finish [first, BitVec.ofNat 8 ch]))
    ∧ ((s.chain c).handed = some ch → exec (.automaticMove c) s =
        .next (s.setChain c { moved .advisor with handed := none }))

/-- The first check of R114 that fails gives the result of a MOVE or a SET CHANNEL; a STEP is BUSY in a move and
NOT_PERMITTED without a present channel, with target 0, and CONFLICT or NO_TUNE_CODE with its target (R116); a refused
request leaves everything but the link as it was; a refused automatic move leaves the chains and is gone (R140; where
it waits is log entry 15's). A chain code, or a channel of MOVE or SET CHANNEL, outside the formats is INVALID (R113). -/
def Obligations.MoveChecksInOrder : Prop :=
  ∀ (s : State) (c : Chain) (b : Byte), 1 ≤ b.toNat → b.toNat ≤ 14 →
    let busy : Prop := (s.chain c).state = .retuning ∨ (s.chain c).state = .dwell
    let barred : Prop := s.radio.domain.highest < b.toNat
    let conflict : Prop := (s.chain (otherChain c)).present = some b.toNat
      ∨ (s.chain (otherChain c)).target = some b.toNat
    let uncoded : Prop := s.radio.tuneCode b.toNat = 0
    (s.Executing 0x20 [chainByte c, b] →
      (busy → exec .move s = .next (s.finish [0x02]))
      ∧ (¬ busy → barred → exec .move s = .next (s.finish [0x08]))
      ∧ (¬ busy → ¬ barred → conflict → exec .move s = .next (s.finish [0x07]))
      ∧ (¬ busy → ¬ barred → ¬ conflict → uncoded → exec .move s = .next (s.finish [0x09])))
    ∧ (s.Executing 0x22 [chainByte c, b] →
      (busy → exec .setChannel s = .next (s.finish [0x02]))
      ∧ (¬ busy → barred → exec .setChannel s = .next (s.finish [0x08]))
      ∧ (¬ busy → ¬ barred → conflict → exec .setChannel s = .next (s.finish [0x07])))
    ∧ (∀ y : Byte, s.Executing 0x21 [chainByte c, y] →
      (busy → exec .step s = .next (s.finish [0x02, 0x00]))
      ∧ (¬ busy → (s.chain c).present = none → exec .step s = .next (s.finish [0x08, 0x00]))
      ∧ (∀ p ch : Nat, ¬ busy → (s.chain c).present = some p → ch ≠ p →
        (ch : Int) = max 1 (min (s.radio.domain.highest : Int) (p + max (-13) (min 13 y.toInt))) →
        let taken : Prop := (s.chain (otherChain c)).present = some ch
          ∨ (s.chain (otherChain c)).target = some ch
        (taken → exec .step s = .next (s.finish [0x07, BitVec.ofNat 8 ch]))
        ∧ (¬ taken → s.radio.tuneCode ch = 0 →
          exec .step s = .next (s.finish [0x09, BitVec.ofNat 8 ch]))))
    ∧ ((s.chain c).handed = some b.toNat → busy ∨ barred ∨ conflict ∨ uncoded →
      exec (.automaticMove c) s = .next (s.setChain c { s.chain c with handed := none }))
    ∧ (∀ x y : Byte, s.Executing 0x20 [x, y] →
      (x ≠ 0x00 ∧ x ≠ 0x01) ∨ y.toNat = 0 ∨ 14 < y.toNat → exec .move s = .next (s.finish [0x01]))
    ∧ (∀ x y : Byte, s.Executing 0x22 [x, y] →
      (x ≠ 0x00 ∧ x ≠ 0x01) ∨ y.toNat = 0 ∨ 14 < y.toNat →
      exec .setChannel s = .next (s.finish [0x01]))
    ∧ (∀ x y : Byte, s.Executing 0x21 [x, y] → x ≠ 0x00 → x ≠ 0x01 →
      exec .step s = .next (s.finish [0x01, 0x00]))

/-- SET CHANNEL places a chain that passes checks 1 to 3 (R117). ABORT MOVE cuts a dwell, is BUSY in RETUNING
and IDLE otherwise (R125); a chain code outside the formats is INVALID (R113). -/
def Obligations.SetChannelAndAbortMove : Prop :=
  ∀ (s : State) (c : Chain),
    (∀ b : Byte, s.Executing 0x22 [chainByte c, b] → 1 ≤ b.toNat →
      b.toNat ≤ s.radio.domain.highest →
      (s.chain c).state = .unset ∨ (s.chain c).state = .ready ∨ (s.chain c).state = .fault →
      (s.chain (otherChain c)).present ≠ some b.toNat →
      (s.chain (otherChain c)).target ≠ some b.toNat →
      exec .setChannel s = .next ((s.setChain c { s.chain c with
        state := .ready, present := some b.toNat, holdOff := 0, origin := .control }).finish [0x00]))
    ∧ (s.Executing 0x23 [chainByte c] →
      ((s.chain c).state = .dwell → exec .abortMove s = .next (State.finish (State.raise
        (s.setChain c { s.chain c with state := .ready, dwellTimer := none, holdOff := 0 })
        .moveDone (.chain c) (.moveDone true (s.chain c).origin)) [0x00]))
      ∧ ((s.chain c).state = .retuning → exec .abortMove s = .next (s.finish [0x02]))
      ∧ ((s.chain c).state = .unset ∨ (s.chain c).state = .ready ∨ (s.chain c).state = .fault →
          exec .abortMove s = .next (s.finish [0x0F])))
    ∧ (∀ x : Byte, s.Executing 0x23 [x] → x ≠ 0x00 → x ≠ 0x01 →
      exec .abortMove s = .next (s.finish [0x01]))

/-- A change of the LOCK input of a chain, by its state: the completing lock with and without a dwell (R119), lock
lost (R122), and the changes that are not acted on (R123). -/
def Obligations.LockActsByState : Prop :=
  ∀ (s : State) (c : Chain),
    let x := s.chain c
    (x.lockIn = false → x.state = .retuning → s.params.dwellTime ≠ 0 →
      exec (.lockAsserted c) s = .next (s.setChain c
      { x with state := .dwell, lockTimer := none, present := x.target, target := none, lockIn := true,
               dwellTimer := some (s.now + BitVec.ofNat 32 (s.params.dwellTime * 1000)) }))
    ∧ (x.lockIn = false → x.state = .retuning → s.params.dwellTime = 0 →
      exec (.lockAsserted c) s = .next (State.raise
      (s.setChain c { x with state := .ready, lockTimer := none, present := x.target, target := none,
                             lockIn := true, dwellTimer := none, holdOff := 0 })
      .moveDone (.chain c) (.moveDone false x.origin)))
    ∧ (x.lockIn = false → x.state ≠ .retuning →
      exec (.lockAsserted c) s = .next (s.setChain c { x with lockIn := true }))
    ∧ (x.lockIn = true → x.state = .ready ∨ x.state = .dwell →
      exec (.lockDeasserted c) s = .next (State.raise
      (s.setChain c { x with state := .fault, present := none, target := none, lockTimer := none,
                             dwellTimer := none, lockIn := false })
      .moveFailed (.chain c) (.moveFailed .lockLost x.origin)))
    ∧ (x.lockIn = true → x.state = .unset ∨ x.state = .retuning ∨ x.state = .fault →
      exec (.lockDeasserted c) s = .next (s.setChain c { x with lockIn := false }))

/-- The lock timer of a chain in RETUNING expires into FAULT with NO_LOCK (R120); the dwell timer of a chain in DWELL
into READY with MOVE_DONE (R121). Time passes to the expiry where it is ahead (R126), the epoch timer with it (R147).
Where an instant before the expiry has its work still to be taken, the expiry has not come and the state is left (log
entry 7). -/
def Obligations.ChainTimersExpire : Prop :=
  ∀ (s : State) (c : Chain) (e : Time), s.timebase.epochTimer < 100000 →
    let x := s.chain c
    let n := s.ahead e
    (0 ≤ (e - s.now).toInt → (s.timebase.later n).time = e)
    ∧ (x.state = .retuning → x.lockTimer = some e →
      (¬ s.Reaches n → exec (.lockTimerExpiry c) s = .next s)
      ∧ (s.Reaches n → exec (.lockTimerExpiry c) s = .next (State.raise
        { s.setChain c { x with state := .fault, present := none, target := none, lockTimer := none,
                                dwellTimer := none } with timebase := s.timebase.later n }
        .moveFailed (.chain c) (.moveFailed .noLock x.origin))))
    ∧ (x.state = .dwell → x.dwellTimer = some e →
      (¬ s.Reaches n → exec (.dwellTimerExpiry c) s = .next s)
      ∧ (s.Reaches n → exec (.dwellTimerExpiry c) s = .next (State.raise
        { s.setChain c { x with state := .ready, dwellTimer := none, holdOff := 0 } with
          timebase := s.timebase.later n }
        .moveDone (.chain c) (.moveDone false x.origin))))

/-- SET DOMAIN sets the domain and the lock once, and is LOCKED or INVALID otherwise (R112). SET AUTO sets the
chain's auto enable (R128). SET TUNE CODE writes one entry, clamped to 4,095, and does not clear a channel in
use (R110). Codes and channels outside the formats are INVALID (R207, R178). -/
def Obligations.ChainSettings : Prop :=
  ∀ s : State,
    (∀ b : Byte, s.Executing 0x10 [b] →
      (∀ d : Domain, b = d.code → s.radio.domainLock = false → exec .setDomain s = .next
        (State.finish { s with radio := { s.radio with domain := d, domainLock := true } } [0x00]))
      ∧ (b = 0x01 ∨ b = 0x02 ∨ b = 0x03 → s.radio.domainLock = true →
          exec .setDomain s = .next (s.finish [0x06]))
      ∧ (b ≠ 0x01 → b ≠ 0x02 → b ≠ 0x03 → exec .setDomain s = .next (s.finish [0x01])))
    ∧ (∀ c, (s.Executing 0x14 [chainByte c, 0x01] → exec .setAuto s =
          .next ((s.setChain c { s.chain c with auto := true }).finish [0x00]))
        ∧ (s.Executing 0x14 [chainByte c, 0x00] → exec .setAuto s =
          .next ((s.setChain c { s.chain c with auto := false }).finish [0x00])))
    ∧ (∀ x y : Byte, s.Executing 0x14 [x, y] → (x ≠ 0x00 ∧ x ≠ 0x01) ∨ (y ≠ 0x00 ∧ y ≠ 0x01) →
        exec .setAuto s = .next (s.finish [0x01]))
    ∧ (∀ ch hi lo : Byte, s.Executing 0x13 [ch, hi, lo] → ch.toNat = 0 ∨ 14 < ch.toNat →
        exec .setTuneCode s = .next (s.finish [0x01]))
    ∧ (∀ ch hi lo : Byte, s.Executing 0x13 [ch, hi, lo] → 1 ≤ ch.toNat → ch.toNat ≤ 14 →
      let code := hi.toNat * 256 + lo.toNat
      let inUse : Prop := ∃ c, (s.chain c).present = some ch.toNat ∨ (s.chain c).target = some ch.toNat
      (code = 0 → inUse → exec .setTuneCode s = .next (s.finish [0x08]))
      ∧ (code ≠ 0 ∨ ¬ inUse → ∃ t, exec .setTuneCode s = .next t
          ∧ t.radio.tuneMap = s.radio.tuneMap.set (ch.toNat - 1) (BitVec.ofNat 12 (min 4095 code))
          ∧ t.link = { s.link with
                       phase := .result, consumed := 0
                       result := (if 4095 < code then 0x80 else 0x00) :: bytesOf 2 (min 4095 code) }
          ∧ t = { s with radio := { s.radio with tuneMap := t.radio.tuneMap }, link := t.link }))

/-! ### The timebase -/

/-- RESTORE CLOCK, by the clock state and the qualification (R154). -/
def Obligations.RestoreClockByState : Prop :=
  ∀ s : State, s.Executing 0x15 [] →
    (s.timebase.clock = .fallback → s.timebase.qual = .qualified → exec .restoreClock s = .next
      (State.finish { s with timebase := { s.timebase with clock := .reference } } [0x00]))
    ∧ (s.timebase.clock = .fallback → s.timebase.qual ≠ .qualified →
      exec .restoreClock s = .next (s.finish [0x0D]))
    ∧ (s.timebase.clock = .internalStart → exec .restoreClock s = .next (s.finish [0x00]))
    ∧ (s.timebase.clock = .reference → s.timebase.qual = .qualified →
      exec .restoreClock s = .next (s.finish [0x00]))

/-- A loss makes the input ABSENT and qualification IDLE, and in REFERENCE falls back with its notice (R149 to
R153). A return starts qualification anew (R150). A qualification switches the clock in INTERNAL_START and
raises REFERENCE_PRESENT in FALLBACK (R151, R153). That a row carries the counter to the expiry, and leaves the state
where an instant before it has its work still to be taken, is log entry 7's; and so is it that a row without a change
of the input changes nothing (log entry 1). -/
def Obligations.ReferenceEvents : Prop :=
  ∀ s : State,
    (s.timebase.refPresent = true →
      let lost := { s.timebase with refPresent := false, qual := .idle }
      (s.timebase.clock = .reference → exec .referenceLoss s = .next (State.raise
        { s with timebase := { lost with clock := .fallback } } .clockFallback .none .none))
      ∧ (s.timebase.clock ≠ .reference → exec .referenceLoss s = .next { s with timebase := lost }))
    ∧ (s.timebase.refPresent = false → exec .referenceReturn s = .next { s with timebase :=
        { s.timebase with refPresent := true, qual := .qualifying (s.now + 1000) } })
    ∧ (s.timebase.refPresent = false → exec .referenceLoss s = .next s)
    ∧ (s.timebase.refPresent = true → exec .referenceReturn s = .next s)
    ∧ (∀ e : Time, s.timebase.qual = .qualifying e → s.timebase.epochTimer < 100000 →
      let n := s.ahead e
      (0 ≤ (e - s.now).toInt → (s.timebase.later n).time = e)
      ∧ (¬ s.Reaches n → exec .qualificationExpiry s = .next s)
      ∧ (s.Reaches n →
        let b : Timebase := { s.timebase.later n with
          qual := .qualified
          clock := if s.timebase.clock = .internalStart then .reference else s.timebase.clock }
        exec .qualificationExpiry s = .next
          (if s.timebase.clock = .fallback then
            State.raise { s with timebase := b } .referencePresent .none .none
           else { s with timebase := b })))

/-! ### The window predictor -/

/-- A query with a chain code is stamped with its arrival and t0, clamped, and accepted into a queue of fewer
than four, and the arbiter acts on it (R88); at a full queue it is answered REFUSED at once (R83, R85, R86). -/
def Obligations.QueryAcceptedOrRefused : Prop :=
  ∀ (s : State) (tag b o1 o0 d1 d0 h1 h0 : Byte) (more : List Byte) (c : Chain),
    b.toNat % 4 = (chainByte c).toNat →
    let high := if b.toNat < 128 then 0 else 65536
    let q : Query :=
      { tag := tag, chain := c, arrival := s.now
        t0 := s.now + BitVec.ofNat 32 (o1.toNat * 256 + o0.toNat)
        d := max 1 (min 16000 (d1.toNat * 256 + d0.toNat))
        h := max 1 (min 100000 (high + h1.toNat * 256 + h0.toNat)) }
    (s.predictor.queue.length < 4 →
      exec (.queryArrival (tag :: b :: o1 :: o0 :: d1 :: d0 :: h1 :: h0 :: more)) s = .next
        (State.handOver { s with predictor := { s.predictor with queue := s.predictor.queue ++ [q] } }))
    ∧ (4 ≤ s.predictor.queue.length →
      exec (.queryArrival (tag :: b :: o1 :: o0 :: d1 :: d0 :: h1 :: h0 :: more)) s = .next
        { s with predictor := { s.predictor with answers := s.predictor.answers ++
          [{ tag := tag, status := .refused, startOffset := 0, freeLength := 0, grade := 0 }] } })

/-- R84: a query whose chain code is neither A nor B is answered REFUSED with its tag at arrival, whatever the
queue's length, and does not enter the queue. -/
def Obligations.QueryOfNoChainRefused : Prop :=
  ∀ (s : State) (tag b o1 o0 d1 d0 h1 h0 : Byte) (more : List Byte), 2 ≤ b.toNat % 4 →
    exec (.queryArrival (tag :: b :: o1 :: o0 :: d1 :: d0 :: h1 :: h0 :: more)) s = .next
      { s with predictor := { s.predictor with answers := s.predictor.answers ++
        [{ tag := tag, status := .refused, startOffset := 0, freeLength := 0, grade := 0 }] } }

/-- The arbiter hands an idle engine to the oldest query, and to a waiting PREVIEW only where no query waits; with
nothing waiting the engine stays IDLE, and an evaluation in progress is not pre-empted (R88 to R90). PREVIEW becomes
waiting, stamped with its entry into EXECUTION, and the arbiter acts on it; a chain code that is neither A nor B is
INVALID (R103). EVALUATION_START is the arbiter's act (log entry 30). -/
def Obligations.EngineIsHandedOut : Prop :=
  ∀ s : State,
    exec .evaluationStart s = .next s.handOver
    ∧ (s.predictor.engine = .idle →
      (∀ q rest, s.predictor.queue = q :: rest → s.handOver =
        { s with predictor := { s.predictor with
            engine := .evaluating .scheduler (s.snapshot q.chain)
              ((s.snapshot q.chain).evaluate q.arrival q.t0 q.d q.h) } })
      ∧ (∀ p, s.predictor.queue = [] → s.predictor.preview = some p → s.handOver =
        { s with predictor := { s.predictor with
            engine := .evaluating .preview (s.snapshot p.chain)
              ((s.snapshot p.chain).evaluate p.arrival p.t0 p.d p.h) } })
      ∧ (s.predictor.queue = [] → s.predictor.preview = none → s.handOver = s))
    ∧ (∀ client n f, s.predictor.engine = .evaluating client n f → s.handOver = s)
    ∧ (∀ b o1 o0 d1 d0 h1 h0 : Byte, s.Executing 0x51 [b, o1, o0, d1, d0, h1, h0] →
      s.predictor.preview = none →
      (2 ≤ b.toNat % 4 → exec .preview s = .next (s.finish [0x01]))
      ∧ (∀ c, b.toNat % 4 = (chainByte c).toNat → exec .preview s = .next (State.handOver
        { s with predictor := { s.predictor with
          preview := some
            { chain := c, arrival := s.link.entered
              t0 := s.link.entered + BitVec.ofNat 32 (o1.toNat * 256 + o0.toNat)
              d := max 1 (min 16000 (d1.toNat * 256 + d0.toNat))
              h := max 1 (min 100000
                ((if b.toNat < 128 then 0 else 65536) + h1.toNat * 256 + h0.toNat)) } } })))

/-- The snapshot of a chain (R91). Without a present channel it takes nothing of the table. On a present channel it
holds the network load of the channel's span (R77), GUARD, and the relevant ovens of R93: every OVEN record that is
TRACKED or COASTING, of known period and phase, and overlapping the span. Where they are at most eight, all are kept.
Otherwise eight are, and each that is left out has fewer hits than every one kept, or as many and a higher slot. Each
kept oven enters with its A16, P16, D and effective tolerance (R53), and those left out are counted. -/
def Obligations.SnapshotKeepsTheRelevantOvens : Prop :=
  ∀ (s : State) (c : Chain),
    let n := s.snapshot c
    n.chain = c ∧ n.state = (s.chain c).state ∧ n.present = (s.chain c).present
    ∧ n.clock = s.timebase.clock ∧ n.guardTime = s.params.guardTime
    ∧ ((s.chain c).present = none → n.ovens = [] ∧ n.leftOut = 0 ∧ n.load = 0)
    ∧ (∀ ch, (s.chain c).present = some ch → 1 ≤ ch → ch ≤ 14 →
      let lo := if ch = 14 then 74 else 5 * ch - 3
      let hi := if ch = 14 then 94 else 5 * ch + 17
      n.load = s.table.networkIn lo hi
      ∧ ∃ kept left : List (Nat × Record × OvenPart),
        ((kept ++ left).map (·.1)).Nodup
        ∧ (∀ i r o, (i, r, o) ∈ kept ++ left ↔ s.table.record i = some r ∧ r.part = .oven o
            ∧ r.Over lo hi ∧ o.periodKnown = true ∧ o.phaseKnown = true)
        ∧ kept.length ≤ 8 ∧ (left ≠ [] → kept.length = 8)
        ∧ (∀ x ∈ left, ∀ y ∈ kept,
            x.2.1.hits < y.2.1.hits ∨ (x.2.1.hits = y.2.1.hits ∧ y.1 < x.1))
        ∧ n.leftOut = left.length
        ∧ n.ovens = kept.map (fun x =>
            { a16 := x.2.2.a16, p16 := x.2.2.p16, d := x.2.2.d,
              wEff := min 8000 (x.2.2.w * (if x.2.1.state = .coasting then 2 else 1)
                * (if s.timebase.clock = .reference then 1 else 2)) }))

/-- The figures of a WINDOW answer: the start offset counts from the arrival, the free length reaches to the earliest
lower edge at or after the window's end, or to the horizon if that comes first (R99), and the grade is that of the
snapshot's network load (R100). The window ends within the horizon and overlaps no forbidden interval (R101), their
edges being those of R95; as positions after t0 they are not wrapped (log entry 10). -/
def Obligations.WindowCarriesItsFreeLength : Prop :=
  ∀ (n : Snapshot) (arrival t0 : Time) (d h off free g : Nat),
    n.state = .ready → (∀ o ∈ n.ovens, 0 < o.p16) →
    n.evaluate arrival t0 d h = .window off free g →
    g = gradeOf n.load
    ∧ ∃ t : Nat, t + d ≤ h ∧ off = (t0 - arrival).toNat + t ∧ n.Clear t0 t d
      ∧ d ≤ free ∧ t + free ≤ h
      ∧ (∀ o ∈ n.ovens, ∀ k : Int, (t + d : Int) ≤ o.lowerEdge t0 n.guardTime k →
          (t + free : Int) ≤ o.lowerEdge t0 n.guardTime k)
      ∧ (t + free = h ∨ ∃ o ∈ n.ovens, ∃ k : Int, (t + free : Int) = o.lowerEdge t0 n.guardTime k)

/-- The search of R97 finds the earliest window that overlaps no forbidden interval and ends within the horizon, and it
ends with NONE where there is no such window; both carry the grade of the snapshot's network load (R100). A chain that
is not READY at the snapshot gives NOT_READY (R94). The intervals are those of R95, and their edges as positions after
t0 are not wrapped (log entry 10). -/
def Obligations.WindowIsEarliest : Prop :=
  ∀ (n : Snapshot) (arrival t0 : Time) (d h : Nat),
    (n.state ≠ .ready → n.evaluate arrival t0 d h = .notReady)
    ∧ (n.state = .ready → (∀ o ∈ n.ovens, 0 < o.p16) →
      (∀ off free g, n.evaluate arrival t0 d h = .window off free g →
        g = gradeOf n.load
        ∧ ∃ t : Nat, off = (t0 - arrival).toNat + t ∧ t + d ≤ h ∧ n.Clear t0 t d
          ∧ ∀ u : Nat, u < t → ¬ n.Clear t0 u d)
      ∧ (∀ g, n.evaluate arrival t0 d h = .none g →
        g = gradeOf n.load ∧ ∀ t : Nat, t + d ≤ h → ¬ n.Clear t0 t d)
      ∧ n.evaluate arrival t0 d h ≠ .notReady)

/-- DELIVERY: the answer of the head query leaves as found, or turned to NOT_READY where the chain is no longer READY on
the snapshot channel (R101), the engine is free (R85, R87), and the arbiter hands it on (R88); a PREVIEW ends with its
result likewise (R104). ANSWER_FRAME_SENT sends the oldest waiting answer as nine bytes (R210) on the answer lines, a
field of the model's own (log entry 12). -/
def Obligations.AnswersLeaveInOrder : Prop :=
  ∀ s : State,
    (∀ n f q rest, s.predictor.engine = .evaluating .scheduler n f → s.predictor.queue = q :: rest →
      let stands : Prop := (s.chain n.chain).state = .ready ∧ (s.chain n.chain).present = n.present
      let leaves (a : Answer) : State := State.handOver { s with predictor := { s.predictor with
        queue := rest, engine := .idle, answers := s.predictor.answers ++ [a] } }
      let notReady : Answer :=
        { tag := q.tag, status := .notReady, startOffset := 0, freeLength := 0, grade := 0 }
      (f = .notReady ∨ ¬ stands → exec .delivery s = .next (leaves notReady))
      ∧ (∀ g, f = .none g → stands → exec .delivery s = .next (leaves
          { tag := q.tag, status := .none, startOffset := 0, freeLength := 0, grade := g }))
      ∧ (∀ off free g, f = .window off free g → stands → exec .delivery s = .next (leaves
          { tag := q.tag, status := .window, startOffset := off, freeLength := free, grade := g })))
    ∧ (∀ n f, s.predictor.engine = .evaluating .preview n f →
      let stands : Prop := (s.chain n.chain).state = .ready ∧ (s.chain n.chain).present = n.present
      let ends (bytes : List Byte) : State := State.handOver (State.finish
        { s with predictor := { s.predictor with preview := none, engine := .idle } } bytes)
      (f = .notReady ∨ ¬ stands →
        exec .delivery s = .next (ends (0x12 :: List.replicate 10 0)))
      ∧ (∀ g, f = .none g → stands → exec .delivery s = .next (ends
          ([0x0B] ++ List.replicate 6 0 ++ bytesOf 1 g ++ bytesOf 1 n.ovens.length
            ++ bytesOf 1 n.leftOut ++ bytesOf 1 n.load)))
      ∧ (∀ off free g, f = .window off free g → stands → exec .delivery s = .next (ends
          ([0x11] ++ bytesOf 3 off ++ bytesOf 3 free ++ bytesOf 1 g ++ bytesOf 1 n.ovens.length
            ++ bytesOf 1 n.leftOut ++ bytesOf 1 n.load))))
    ∧ (∀ a rest, s.predictor.answers = a :: rest → exec .answerFrameSent s = .next
      { s with predictor := { s.predictor with
        answers := rest
        answerLines := [a.tag, a.status.code] ++ bytesOf 3 a.startOffset ++ bytesOf 3 a.freeLength
          ++ bytesOf 1 a.grade } })

/-! ### The control link -/

/-- A transaction begins with select, takes its type from the transfer byte of its status exchange, and ends with
select (R160, R208). The start of an exchange latches what the status byte shows (R161; the latch and its free instant
are log entry 29's). Each exchange of the status byte shifts out the byte of R163 as latched, or as it stands where the
exchange began in the present state. A READ exchange begun outside RESULT and a STATUS exchange change nothing else
(that STATUS_EXCHANGE and READ_RESULT_BYTE are their rows is log entry 20's). A READ exchange begun in RESULT consumes
the next result byte, and the last one returns the link to IDLE (R161, R168). -/
def Obligations.TransactionsAndReads : Prop :=
  ∀ s : State,
    let start : Standing := s.link.begun.getD { phase := s.link.phase, attention := s.notices.attention }
    let shown : Byte := (if start.attention then 0x58 else 0x50) + match start.phase with
      | .idle => 0x01
      | .command => 0x05
      | .execution => 0x04
      | .result => 0x07
    s.beginExchange = { s with link := { s.link with
        begun := some { phase := s.link.phase, attention := s.notices.attention } } }
    ∧ (s.link.transaction = .none → exec .selectAsserted s =
      .next { s with link := { s.link with transaction := .opened, begun := none, miso := none } })
    ∧ (∀ b : Byte, s.link.transaction = .opened → exec (.statusExchange b) s = .next
      { s with link := { s.link with
        miso := some shown, begun := none
        transaction := if b = 0x3C then .write else if b = 0xC3 then .read else .status } })
    ∧ (∀ b : Byte, s.link.transaction = .status → exec (.statusExchange b) s =
      .next { s with link := { s.link with miso := some shown, begun := none } })
    ∧ exec .selectDeasserted s =
      .next { s with link := { s.link with transaction := .none, begun := none, miso := none } }
    ∧ (s.link.transaction = .read → start.phase ≠ .result → exec .readResultByte s =
      .next { s with link := { s.link with miso := some shown, begun := none } })
    ∧ (∀ b, s.link.transaction = .read → start.phase = .result →
      s.link.result[s.link.consumed]? = some b →
      (s.link.consumed + 1 < s.link.result.length → exec .readResultByte s =
        .next { s with link := { s.link with
          miso := some b, begun := none, consumed := s.link.consumed + 1 } })
      ∧ (s.link.consumed + 1 = s.link.result.length → exec .readResultByte s =
        .next { s with link := { s.link with
          phase := .idle, code := none, expected := 0, params := [], result := [], consumed := 0
          begun := none, miso := some b } }))

/-- A byte written in IDLE is a request code (R165), by the codes and counts of 12.2. An unassigned one is answered
INVALID and reaches no block, one of no parameters enters EXECUTION at once, its entry stamped (R103), and one of n
parameters enters COMMAND expecting them. That the link's code field holds an unassigned code too is log entry 16's;
the status byte shifted out is that of the exchange's start (R161, log entry 29). -/
def Obligations.RequestCodeByItsCount : Prop :=
  ∀ (s : State) (b : Byte), s.link.transaction = .write →
    let counts : List (Nat × Nat) := [(0x01, 0), (0x02, 0), (0x10, 1), (0x11, 3), (0x12, 2), (0x13, 3),
      (0x14, 2), (0x15, 0), (0x20, 2), (0x21, 2), (0x22, 2), (0x23, 1), (0x30, 13), (0x31, 3), (0x32, 2),
      (0x40, 2), (0x41, 0), (0x42, 4), (0x43, 1), (0x44, 0), (0x50, 8), (0x51, 7), (0x52, 0), (0x60, 0)]
    let taken (k : Link) : State := { s with link := { k with
      miso := some s.shown.byte, begun := none, code := some b, params := [], consumed := 0 } }
    (s.link.phase = .idle →
      (counts.lookup b.toNat = none → exec (.requestCode b) s = .next (taken { s.link with
        phase := .result, expected := 0, result := [0x01] }))
      ∧ (counts.lookup b.toNat = some 0 → exec (.requestCode b) s = .next (taken { s.link with
        phase := .execution, expected := 0, result := [], entered := s.now }))
      ∧ (∀ n, counts.lookup b.toNat = some (n + 1) → exec (.requestCode b) s = .next (taken { s.link with
        phase := .command, expected := n + 1, result := [] })))

/-- A byte written in COMMAND joins the parameters, and the last one starts EXECUTION (R166), its entry stamped (R103).
A byte written in the EXECUTION of a short request has no effect on it (R167). A byte written in RESULT abandons the
result and is taken as a request code, as from IDLE (R169). That the link's code field holds an unassigned code too is
log entry 16's; the status byte shifted out is that of the exchange's start (R161, log entry 29). -/
def Obligations.WrittenBytesByPhase : Prop :=
  ∀ (s : State) (b : Byte), s.link.transaction = .write →
    let counts : List (Nat × Nat) := [(0x01, 0), (0x02, 0), (0x10, 1), (0x11, 3), (0x12, 2), (0x13, 3),
      (0x14, 2), (0x15, 0), (0x20, 2), (0x21, 2), (0x22, 2), (0x23, 1), (0x30, 13), (0x31, 3), (0x32, 2),
      (0x40, 2), (0x41, 0), (0x42, 4), (0x43, 1), (0x44, 0), (0x50, 8), (0x51, 7), (0x52, 0), (0x60, 0)]
    let taken (k : Link) : State := { s with link := { k with
      miso := some s.shown.byte, begun := none, code := some b, params := [], consumed := 0 } }
    let echoed := { s.link with miso := some s.shown.byte, begun := none }
    (s.link.phase = .command →
      (s.link.params.length + 1 < s.link.expected → exec (.parameterByte b) s = .next { s with link :=
        { echoed with params := s.link.params ++ [b] } })
      ∧ (s.link.expected ≤ s.link.params.length + 1 → exec (.parameterByte b) s = .next { s with link :=
        { echoed with params := s.link.params ++ [b], phase := .execution, entered := s.now } }))
    ∧ (s.link.phase = .execution → s.link.code ≠ some 0x50 → s.link.code ≠ some 0x51 →
      exec (.ignoredByte b) s = .next { s with link := echoed })
    ∧ (s.link.phase = .result →
      (counts.lookup b.toNat = none → exec (.abandon b) s = .next (taken { s.link with
        phase := .result, expected := 0, result := [0x01] }))
      ∧ (counts.lookup b.toNat = some 0 → exec (.abandon b) s = .next (taken { s.link with
        phase := .execution, expected := 0, result := [], entered := s.now }))
      ∧ (∀ n, counts.lookup b.toNat = some (n + 1) → exec (.abandon b) s = .next (taken { s.link with
        phase := .command, expected := n + 1, result := [] })))

/-- A byte written in the EXECUTION of a SWEEP ends it with the matches found so far and the next slot to examine (R170,
R196). One written in that of a PREVIEW withdraws it (R105): the engine and the queue are not touched where it waits,
and an evaluation of it is abandoned and the arbiter hands the engine on. The status byte shifted out is that of the
exchange's start (R161, log entry 29). -/
def Obligations.AbortEndsALongRequest : Prop :=
  ∀ (s : State) (b : Byte), s.link.transaction = .write → s.link.phase = .execution →
    let two (v : Nat) : List Byte := [BitVec.ofNat 8 (v / 256), BitVec.ofNat 8 v]
    let ended (bytes : List Byte) : Link := { s.link with
      miso := some s.shown.byte, begun := none, phase := .result, result := bytes, consumed := 0 }
    (∀ w, s.link.code = some 0x50 → s.sweep = some w → exec (.abort b) s = .next { s with
      sweep := none
      link := ended ([0x0C, BitVec.ofNat 8 w.found.length]
        ++ (w.found.flatMap (fun x => two (x.1 * 16 + x.2.toNat)) ++ List.replicate (2 * (8 - w.found.length)) 0xFF)
        ++ [BitVec.ofNat 8 w.next]) })
    ∧ (s.link.code = some 0x51 → s.predictor.preview.isSome = true →
      (∀ n f, s.predictor.engine = .evaluating .preview n f → exec (.abort b) s = .next (State.handOver
        { s with
          predictor := { s.predictor with preview := none, engine := .idle }, link := ended [0x0C] }))
      ∧ (∀ n f, s.predictor.engine = .evaluating .scheduler n f → exec (.abort b) s = .next
        { s with predictor := { s.predictor with preview := none }, link := ended [0x0C] }))

/-! ### Requests that read, and the parameters -/

/-- READ STATUS, READ COSTS and READ change nothing but the link. READ STATUS returns the 21 bytes of the status
record (R172, 12.2), READ COSTS the 47 bytes of the advisor's state (R144, 12.2), READ the handle, the staged mask and
the 21-byte image of the live record (R182, 12.3), or NOT_OPEN. Values of several bytes go most significant first. Bits that 12.2 and 12.3 do not name read 0, which is log
entry 32's choice. -/
def Obligations.ReadersChangeNothing : Prop :=
  ∀ s : State,
    let one (v : Nat) : List Byte := [BitVec.ofNat 8 v]
    let two (v : Nat) : List Byte := one (v / 256) ++ one v
    let three (v : Nat) : List Byte := one (v / 65536) ++ two v
    let four (v : Nat) : List Byte := two (v / 65536) ++ two v
    let flag (b : Bool) : Nat := if b then 1 else 0
    (s.Executing 0x01 [] →
      let clock : Nat := match s.timebase.clock with
        | .internalStart => 0 | .reference => 1 | .fallback => 2
      let domain : Nat := match s.radio.domain with
        | .A => 1 | .B => 2 | .C => 3
      let chain (c : Chain) : List Byte :=
        one (match (s.chain c).state with
          | .unset => 0 | .ready => 1 | .retuning => 2 | .dwell => 3 | .fault => 4)
        ++ one ((s.chain c).present.getD 0) ++ one ((s.chain c).target.getD 0) ++ one (flag (s.chain c).auto)
      let counts := s.table.counts
      let blind : Bool := s.intake.blindThrough != .none || s.intake.notReadySeen
      let bytes := one clock ++ four s.timebase.time.toNat ++ one (domain + 128 * flag s.radio.domainLock)
        ++ chain .A ++ chain .B
        ++ one counts.free ++ one counts.candidate ++ one counts.tracked ++ one counts.coasting
        ++ one counts.retired ++ one s.table.pinned ++ one (flag blind + 2 * flag s.notices.attention)
      exec .readStatus s = .next (s.finish (0x00 :: bytes)) ∧ bytes.length = 21)
    ∧ (s.Executing 0x52 [] →
      let advice (c : Chain) : List Byte :=
        one (s.chain c).streak ++ one ((s.chain c).lastAdvised.getD 0)
      let bytes := one (flag s.advisor.costed)
        ++ s.advisor.costs.flatMap (fun x => one x.oven ++ one x.network ++ one x.cost)
        ++ advice .A ++ advice .B
      exec .readCosts s = .next (s.finish (0x00 :: bytes))
      ∧ (s.advisor.costs.length = 14 → bytes.length = 47))
    ∧ (s.Executing 0x41 [] →
      (s.cursor = none → exec .readRecord s = .next (s.finish [0x0E]))
      ∧ (∀ c r, s.cursor = some c → s.table.record c.slot = some r →
        let g := c.staged
        let mask : Nat := flag g.spanLow.isSome + 2 * flag g.spanHigh.isSome + 4 * flag g.p.isSome
          + 8 * flag g.d.isSome + 16 * flag g.w.isSome + 32 * flag g.channel.isSome + 64 * flag g.tag.isSome
        let state : Nat := match r.state with
          | .candidate => 1 | .tracked => 2 | .coasting => 3 | .retired => 4
        let kind : Nat := match r.part with
          | .oven _ => 1 | .neighbour _ _ _ => 2 | .steady _ => 3
        let part : List Byte := match r.part with
          | .oven o => one (flag o.periodKnown + 2 * flag o.phaseKnown) ++ three o.p16
              ++ four (if o.phaseKnown then o.a16.toNat / 16 else 0) ++ two o.d ++ two o.w
          | .neighbour tag ch a => two tag.toNat ++ one ch ++ one a.share ++ three a.acc
              ++ [BitVec.ofInt 8 a.level, 0x00, 0x00, 0x00, 0x00]
          | .steady a => one a.share ++ three a.acc
              ++ [BitVec.ofInt 8 a.level, 0x00, 0x00, 0x00, 0x00, 0x00, 0x00, 0x00]
        let image := one kind ++ one state
          ++ one ((if r.origin = .pinned then 1 else 0) + 2 * flag r.held + 4 * flag r.hitFlag)
          ++ one r.span.lo ++ one r.span.hi ++ one r.hits ++ one r.idle ++ one r.emptyStreak ++ one r.age
          ++ part
        r.image = image ∧ image.length = 21
        ∧ exec .readRecord s = .next (s.finish
            (0x00 :: two (c.slot * 16 + c.gen.toNat) ++ one mask ++ image))))

/-- R175: SET PARAMETER of an id outside the table is INVALID and changes no parameter; otherwise the parameter
takes the value clamped to its range, which the result returns, with the clamped flag where the clamp changed
it. -/
def Obligations.SetParameterClampsAndHolds : Prop :=
  ∀ (s : State) (id hi lo : Byte), s.Executing 0x11 [id, hi, lo] →
    let v := hi.toNat * 256 + lo.toNat
    let ranges : List (Nat × Nat) := [(500, 10000), (0, 200), (0, 1000), (250, 4000), (2, 8), (1, 8),
      (1, 8), (2, 50), (10, 255), (10, 255), (0, 255), (1, 15), (0, 255), (0, 7)]
    let values (p : Params) : List Nat := [p.lockTimeout, p.dwellTime, p.guardTime, p.ovenTolerance,
      p.ovenConfirm, p.neighbourConfirm, p.steadyConfirm, p.candidateLimit, p.ovenRetire,
      p.neighbourRetire, p.adviceMargin, p.advicePersist, p.autoHoldoff, p.attentionThreshold]
    (id.toNat = 0 ∨ 14 < id.toNat → exec .setParameter s = .next (s.finish [0x01]))
    ∧ (∀ range, 1 ≤ id.toNat → ranges[id.toNat - 1]? = some range →
      let held := max range.1 (min range.2 v)
      ∃ t, exec .setParameter s = .next t
        ∧ values t.params = (values s.params).set (id.toNat - 1) held
        ∧ t.link = { s.link with
                     phase := .result, consumed := 0
                     result := (if held = v then 0x00 else 0x80) :: bytesOf 2 held }
        ∧ t.notices = { s.notices with attention := t.notices.attention }
        ∧ (id.toNat ≠ 14 → t.notices = s.notices)
        ∧ (id.toNat = 14 → (t.notices.attention = true ↔ s.notices.Calls held))
        ∧ t = { s with params := t.params, notices := t.notices, link := t.link })

/-! ### Notices -/

/-- A notice of a kind at level 0 is not entered; one whose key is pending is counted there; one of a new key is
entered newest where fewer than 16 are pending; at a full list it merges into its kind's SEVERAL or oldest entry
(R199, R200), or replaces the oldest entry of the lowest level, a CLOCK_FALLBACK excepted (R201). ATTENTION is
judged again (R203). -/
def Obligations.RaisingANotice : Prop :=
  ∀ (s : State) (k : NoticeKind) (subj : Subject) (data : NoticeData),
    (s.notices.levels.level k = 0 → s.raise k subj data = s)
    ∧ (s.notices.levels.level k ≠ 0 →
      let before := s.notices.entries
      let pendingKey : Prop := ∃ e ∈ before, e.key = (k, subj)
      let fresh : Entry := { kind := k, subject := subj, count := 1, data := data }
      ∃ es : List Entry, ∃ line : Bool,
        s.raise k subj data = { s with notices := { s.notices with entries := es, attention := line } }
        ∧ (line = true ↔ ∃ e ∈ es,
            s.params.attentionThreshold < s.notices.levels.level e.kind ∨ e.kind = .clockFallback)
        ∧ (∀ l e r, before = l ++ e :: r → e.key = (k, subj) → (∀ x ∈ l, x.key ≠ (k, subj)) →
            es = l ++ { e with count := min 255 (e.count + 1), data := data } :: r)
        ∧ (¬ pendingKey → before.length < 16 → es = before ++ [fresh])
        ∧ (∀ l e r, ¬ pendingKey → 16 ≤ before.length → before = l ++ e :: r →
            ((e.key = (k, .several) ∧ ∀ x ∈ l, x.key ≠ (k, .several))
              ∨ (e.kind = k ∧ (∀ x ∈ l, x.kind ≠ k) ∧ ∀ x ∈ before, x.key ≠ (k, .several))) →
            es = l ++ { e with subject := .several, count := min 255 (e.count + 1), data := data } :: r)
        ∧ (∀ l e r, 16 ≤ before.length → (∀ x ∈ before, x.kind ≠ k) → before = l ++ e :: r →
            e.kind ≠ .clockFallback →
            (∀ x ∈ l, x.kind = .clockFallback
              ∨ s.notices.levels.level e.kind < s.notices.levels.level x.kind) →
            (∀ x ∈ r, x.kind = .clockFallback
              ∨ s.notices.levels.level e.kind ≤ s.notices.levels.level x.kind) →
            es = l ++ r ++ [fresh]))

/-- SET NOTICE LEVEL, by the kind codes of R198, holds a level clamped to 7, CLOCK_FALLBACK's staying at 7, and judges
attention again; the levels are kept by RESET and are the defaults of R198 after POWER_ON_RESET (R177, R203). FETCH
NOTICE takes the entry of the highest level, then of the earliest kind, then the oldest, returns its kind code, subject,
count and data in the bytes of 12.2, and removes it; with nothing pending the result is NONE (R204). Of the data of
MOVE_DONE and MOVE_FAILED it says bits 0 and 1, which are all that 12.2 gives. -/
def Obligations.NoticeRequests : Prop :=
  ∀ s : State,
    let code : NoticeKind → Nat
      | .ovenConfirmed => 1 | .ovenRetired => 2 | .neighbourConfirmed => 3 | .neighbourRetired => 4
      | .tableFull => 5 | .intakeOverflow => 6 | .clockFallback => 7 | .referencePresent => 8
      | .moveDone => 9 | .moveFailed => 10 | .advice => 11
    let subject : Subject → List Byte
      | .handle i gen => [BitVec.ofNat 8 ((i * 16 + gen.toNat) / 256), BitVec.ofNat 8 (i * 16 + gen.toNat)]
      | .chain .A => [0xF0, 0x00]
      | .chain .B => [0xF0, 0x01]
      | .several => [0xFF, 0xFE]
      | .none => [0xFF, 0xFF]
    let tells (d : Byte) : NoticeData → Prop
      | .none => d = 0x00
      | .advice ch => d = BitVec.ofNat 8 ch
      | .moveDone cut origin =>
        d.getLsbD 0 = cut ∧ (d.getLsbD 1 = true ↔ origin = .advisor)
      | .moveFailed cause origin =>
        (d.getLsbD 0 = true ↔ cause = .lockLost) ∧ (d.getLsbD 1 = true ↔ origin = .advisor)
    (∀ b v : Byte, s.Executing 0x12 [b, v] →
      (b.toNat = 0 ∨ 11 < b.toNat → exec .setNoticeLevel s = .next (s.finish [0x01]))
      ∧ (∀ k : NoticeKind, b.toNat = code k →
        let held := if k = .clockFallback then 7 else min 7 v.toNat
        ∃ t, exec .setNoticeLevel s = .next t
          ∧ (∀ k', t.notices.levels.level k' =
              if k' = k then held else s.notices.levels.level k')
          ∧ t.notices.entries = s.notices.entries
          ∧ (t.notices.attention = true ↔ t.notices.Calls s.params.attentionThreshold)
          ∧ t.link = { s.link with
              phase := .result, consumed := 0
              result := [if held = v.toNat then 0x00 else 0x80, BitVec.ofNat 8 held] }
          ∧ t = { s with notices := t.notices, link := t.link }))
    ∧ (s.Executing 0x02 [] → ∃ t, exec .reset s = .next t ∧ t.notices.levels = s.notices.levels)
    ∧ (∃ t, exec .powerOnReset s = .next t
      ∧ allNoticeKinds.map t.notices.levels.level = [4, 3, 2, 1, 5, 5, 7, 3, 4, 6, 3])
    ∧ (s.Executing 0x60 [] →
      (s.notices.entries = [] → exec .fetchNotice s = .next (s.finish [0x0B]))
      ∧ (∀ l e r, s.notices.entries = l ++ e :: r →
        let level (x : Entry) := s.notices.levels.level x.kind
        let after (x : Entry) : Prop :=
          level x < level e ∨ (level x = level e ∧ code e.kind < code x.kind)
        (∀ x ∈ l, after x) → (∀ x ∈ r, after x ∨ (level x = level e ∧ code e.kind = code x.kind)) →
        ∃ t d, exec .fetchNotice s = .next t ∧ tells d e.data
          ∧ t.notices.entries = l ++ r ∧ t.notices.levels = s.notices.levels
          ∧ (t.notices.attention = true ↔ t.notices.Calls s.params.attentionThreshold)
          ∧ t.link = { s.link with
              phase := .result, consumed := 0
              result := [0x00, BitVec.ofNat 8 (code e.kind)] ++ subject e.subject
                ++ [BitVec.ofNat 8 e.count, d] }
          ∧ t = { s with notices := t.notices, link := t.link }))

/-! ### Requests on records -/

/-- What a handle resolves to, in the order of R2; a record is served only where the generations
agree and the record is live. -/
def Obligations.HandleResolution : Prop :=
  ∀ (t : Table) (v : Nat), v ≤ 0xFFFF →
    let slot := t.slot (v / 16)
    (v = 0xFFFF → t.resolve v = .refused .empty)
    ∧ (1024 ≤ v → v ≠ 0xFFFF → t.resolve v = .refused .invalid)
    ∧ (v < 1024 → slot.gen.toNat ≠ v % 16 → t.resolve v = .refused .stale)
    ∧ (v < 1024 → slot.gen.toNat = v % 16 → slot.record = none → t.resolve v = .refused .empty)
    ∧ (∀ r, v < 1024 → slot.gen.toNat = v % 16 → slot.record = some r →
        (r.state = .retired → t.resolve v = .refused .empty)
        ∧ (r.state ≠ .retired → t.resolve v = .record (v / 16) r))

/-- PIN of each kind (R25, R189). Values that belong to the kind are clamped to their ranges and the span's width to 40
from its low edge, with the clamped flag; crossed edges, a channel outside 1 to 14 and an unassigned kind are INVALID.
The 17th pinned record is refused FULL, and so is one for which no slot can be had. Otherwise the record is installed
in the lowest FREE slot, or in that of the oldest unheld candidate, which is evicted (R12): TRACKED and PINNED, an OVEN
with its period held and its phase unknown. -/
def Obligations.PinInstalls : Prop :=
  ∀ (s : State) (kind lo hi p2 p1 p0 d1 d0 w1 w0 channel t1 t0 : Byte),
    s.Executing 0x30 [kind, lo, hi, p2, p1, p0, d1, d0, w1, w0, channel, t1, t0] →
    let p := (p2.toNat * 256 + p1.toNat) * 256 + p0.toNat
    let d := d1.toNat * 256 + d0.toNat
    let w := w1.toNat * 256 + w0.toNat
    let low := min 100 lo.toNat
    let high := min 100 hi.toNat
    let span : Span := { lo := low, hi := min high (low + 40) }
    let spanKept : Prop := lo.toNat = low ∧ hi.toNat = span.hi
    let period := max 256000 (min 336000 p)
    let duration := if d = 0xFFFF then period / 32 else max 1000 (min 15000 d)
    let tolerance := if w = 0xFFFF then s.params.ovenTolerance else max 250 (min 4000 w)
    let installs (span : Span) (part : Part) (kept : Prop) : Prop :=
      (16 ≤ s.table.pinned → exec .pin s = .next (s.finish [0x0A]))
      ∧ (s.table.pinned < 16 →
        let installed (t : State) (i : Nat) (gen : BitVec 4) : Prop := exec .pin s = .next t
          ∧ t.table.slot i = ⟨gen, some
            { part := part, state := .tracked, origin := .pinned, held := false, span := span,
              hits := 0, idle := 0, emptyStreak := 0, hitFlag := false, age := 0,
              seq := s.table.seqCounter }⟩
          ∧ (∀ j, j ≠ i → t.table.slot j = s.table.slot j)
          ∧ t.table.seqCounter = s.table.seqCounter + 1
          ∧ (∃ first : Byte, (kept → first = 0x00) ∧ (¬ kept → first = 0x80)
            ∧ t.link = { s.link with
                phase := .result, consumed := 0
                result := [first, BitVec.ofNat 8 ((i * 16 + gen.toNat) / 256),
                  BitVec.ofNat 8 (i * 16 + gen.toNat)] })
          ∧ t = { s with table := t.table, link := t.link }
        (∀ i, s.table.LowestFree i → ∃ t, installed t i (s.table.slot i).gen
          ∧ t.table.pinned = s.table.pinned + 1
          ∧ t.table.counts = { s.table.counts with
              free := s.table.counts.free - 1, tracked := s.table.counts.tracked + 1 })
        ∧ ((∀ x ∈ s.table.slots, x.record.isSome = true) →
          (∀ i r, s.table.OldestCandidate i r → ∃ t, installed t i ((s.table.slot i).gen + 1)
            ∧ (r.origin = .learned → t.table.pinned = s.table.pinned + 1)
            ∧ t.table.counts = { s.table.counts with
                candidate := s.table.counts.candidate - 1, tracked := s.table.counts.tracked + 1 })
          ∧ ((∀ y ∈ s.table.records, y.2.state = .candidate → y.2.held = true) →
            exec .pin s = .next (s.finish [0x0A]))))
    (kind ≠ 0x01 → kind ≠ 0x02 → kind ≠ 0x03 → exec .pin s = .next (s.finish [0x01]))
    ∧ (kind = 0x01 ∨ kind = 0x03 → high < low → exec .pin s = .next (s.finish [0x01]))
    ∧ (kind = 0x01 → low ≤ high → 250 ≤ s.params.ovenTolerance → s.params.ovenTolerance ≤ 4000 →
      installs span (.oven
        { periodKnown := true, p16 := period, phaseKnown := false, a16 := 0, d := duration,
          w := tolerance })
        (spanKept ∧ p = period ∧ (d = 0xFFFF ∨ d = duration) ∧ (w = 0xFFFF ∨ w = tolerance)))
    ∧ (kind = 0x02 → (channel.toNat = 0 ∨ 14 < channel.toNat → exec .pin s = .next (s.finish [0x01]))
      ∧ (1 ≤ channel.toNat → channel.toNat ≤ 14 → installs (channelSpan channel.toNat)
        (.neighbour (BitVec.ofNat 16 (t1.toNat * 256 + t0.toNat)) channel.toNat
          { share := 0, acc := 0, level := -100 }) True))
    ∧ (kind = 0x03 → low ≤ high →
      installs span (.steady { share := 0, acc := 0, level := -100 }) spanKept)

/-- SET ORIGIN (R26, R27, R190): the origin of a TRACKED or COASTING record, FULL at 16 pinned, and nothing to do
where the record has that origin. A candidate is confirmed with its notice before it is pinned, or is
NOT_PERMITTED where it does not satisfy confirmation. RETIRE frees an unheld record's slot and leaves a held one
in RETIRED, without notice (R22, R191). A handle that does not resolve answers either with its refusal, and an origin
byte other than 0x00 and 0x01 is INVALID; both leave everything (R2, R190, R191, R207). -/
def Obligations.OriginAndRetireRequests : Prop :=
  ∀ (s : State) (h1 h0 : Byte),
    (∀ x : Byte, s.Executing 0x31 [h1, h0, x] → x ≠ 0x00 → x ≠ 0x01 →
      exec .setOrigin s = .next (s.finish [0x01]))
    ∧ (∀ e, s.table.resolve (h1.toNat * 256 + h0.toNat) = .refused e →
      (∀ x : Byte, s.Executing 0x31 [h1, h0, x] → x = 0x00 ∨ x = 0x01 →
        exec .setOrigin s = .next (s.finish [e.code]))
      ∧ (s.Executing 0x32 [h1, h0] → exec .retire s = .next (s.finish [e.code])))
    ∧ ∀ (i : Nat) (r : Record), s.table.resolve (h1.toNat * 256 + h0.toNat) = .record i r →
    (s.Executing 0x31 [h1, h0, 0x01] →
      (r.origin = .pinned → exec .setOrigin s = .next (s.finish [0x00, r.state.code, 0x01]))
      ∧ (r.origin = .learned → 16 ≤ s.table.pinned → exec .setOrigin s = .next (s.finish [0x0A]))
      ∧ (r.origin = .learned → s.table.pinned < 16 →
        (r.state = .tracked ∨ r.state = .coasting → exec .setOrigin s = .next
          ((s.putRecord i { r with origin := .pinned }).finish [0x00, r.state.code, 0x01]))
        ∧ (r.state = .candidate → s.confirm i = s → exec .setOrigin s = .next (s.finish [0x08]))
        ∧ (r.state = .candidate → s.confirm i ≠ s → exec .setOrigin s = .next
          (((s.confirm i).putRecord i
            { r with state := .tracked, idle := 0, emptyStreak := 0, age := 0,
                     origin := .pinned }).finish [0x00, 0x02, 0x01]))))
    ∧ (s.Executing 0x31 [h1, h0, 0x00] →
      (r.origin = .learned → exec .setOrigin s = .next (s.finish [0x00, r.state.code, 0x00]))
      ∧ (r.origin = .pinned → exec .setOrigin s = .next
          ((s.putRecord i { r with origin := .learned }).finish [0x00, r.state.code, 0x00])))
    ∧ (s.Executing 0x32 [h1, h0] →
      (r.held = true → exec .retire s =
        .next ((s.putRecord i { r with state := .retired }).finish [0x00, 0x01]))
      ∧ (r.held = false → exec .retire s =
        .next (State.finish { s with table := s.table.release i } [0x00, 0x00])))

/-- OPEN of a live record releases what was held and holds the record with nothing staged; it is GONE while the
cursor holds a RETIRED record, a refused resolution leaves everything, and the record already held is released and held
again with nothing staged; no record is created (R181). EDIT, by the field codes of 12.1, clamps a value of a field of
the held kind to the range of R183 and stages it, and does not touch the table; a field that does not belong to the
kind, or a code that names no field, is INVALID, and a closed cursor NOT_OPEN (R183). -/
def Obligations.OpenAndEdit : Prop :=
  ∀ s : State,
    (∀ (h1 h0 : Byte), s.Executing 0x40 [h1, h0] →
      (∀ e, s.table.resolve (h1.toNat * 256 + h0.toNat) = .refused e →
        exec .openRecord s = .next (s.finish [e.code]))
      ∧ (∀ i r, s.table.resolve (h1.toNat * 256 + h0.toNat) = .record i r →
        (∀ c q, s.cursor = some c → s.table.record c.slot = some q → q.state = .retired →
          exec .openRecord s = .next (s.finish [0x05]))
        ∧ (∀ c q, s.cursor = some c → s.table.record c.slot = some q → q.state ≠ .retired → c.slot ≠ i →
          ∃ t, exec .openRecord s = .next t
            ∧ t.table.slot c.slot = ⟨(s.table.slot c.slot).gen, some { q with held := false }⟩
            ∧ t.table.slot i = ⟨(s.table.slot i).gen, some { r with held := true }⟩
            ∧ (∀ j, j ≠ i → j ≠ c.slot → t.table.slot j = s.table.slot j)
            ∧ t.table.seqCounter = s.table.seqCounter
            ∧ t.cursor = some { slot := i, gen := (s.table.slot i).gen, staged := Staged.empty }
            ∧ t.link = { s.link with
                phase := .result, consumed := 0
                result := [0x00, 0x01] ++ bytesOf 2 (i * 16 + (s.table.slot i).gen.toNat)
                  ++ Record.image { r with held := true } }
            ∧ t = { s with table := t.table, cursor := t.cursor, link := t.link })
        ∧ (∀ c, s.cursor = some c → c.slot = i →
          ∃ t, exec .openRecord s = .next t
            ∧ t.table.slot i = ⟨(s.table.slot i).gen, some { r with held := true }⟩
            ∧ (∀ j, j ≠ i → t.table.slot j = s.table.slot j)
            ∧ t.table.seqCounter = s.table.seqCounter
            ∧ t.cursor = some { slot := i, gen := (s.table.slot i).gen, staged := Staged.empty }
            ∧ t.link = { s.link with
                phase := .result, consumed := 0
                result := [0x00, 0x01] ++ bytesOf 2 (i * 16 + (s.table.slot i).gen.toNat)
                  ++ Record.image { r with held := true } }
            ∧ t = { s with table := t.table, cursor := t.cursor, link := t.link })
        ∧ (s.cursor = none → exec .openRecord s = .next
            (State.finish
              { s.putRecord i { r with held := true } with
                cursor := some
                  { slot := i, gen := (s.table.slot i).gen, staged := Staged.empty } }
              ([0x00, 0x00] ++ bytesOf 2 (i * 16 + (s.table.slot i).gen.toNat)
                ++ Record.image { r with held := true })))))
    ∧ (∀ f v2 v1 v0 : Byte, s.Executing 0x42 [f, v2, v1, v0] →
      (f.toNat = 0 ∨ 7 < f.toNat → exec .editField s = .next (s.finish [0x01]))
      ∧ (1 ≤ f.toNat → f.toNat ≤ 7 → s.cursor = none → exec .editField s = .next (s.finish [0x0E])))
    ∧ (∀ (f v2 v1 v0 : Byte) (c : Cursor) (r : Record),
      s.Executing 0x42 [f, v2, v1, v0] → s.cursor = some c → s.table.record c.slot = some r →
      let v := (v2.toNat * 256 + v1.toNat) * 256 + v0.toNat
      let g := c.staged
      let oven : Prop := ∃ o, r.part = .oven o
      let neighbour : Prop := ∃ tag ch a, r.part = .neighbour tag ch a
      let edits (kinds : Prop) (lo hi : Nat) (put : Nat → Staged) : Prop :=
        let kept := max lo (min hi v)
        (¬ kinds → exec .editField s = .next (s.finish [0x01]))
        ∧ (kinds → exec .editField s = .next
          (State.finish { s with cursor := some { c with staged := put kept } }
            [if kept = v then 0x00 else 0x80, BitVec.ofNat 8 (kept / 65536), BitVec.ofNat 8 (kept / 256),
              BitVec.ofNat 8 kept]))
      (f = 0x01 → edits (¬ neighbour) 0 100 (fun x => { g with spanLow := some x }))
      ∧ (f = 0x02 → edits (¬ neighbour) 0 100 (fun x => { g with spanHigh := some x }))
      ∧ (f = 0x03 → edits oven 256000 336000 (fun x => { g with p := some x }))
      ∧ (f = 0x04 → edits oven 1000 15000 (fun x => { g with d := some x }))
      ∧ (f = 0x05 → edits oven 250 4000 (fun x => { g with w := some x }))
      ∧ (f = 0x06 → edits neighbour 1 14 (fun x => { g with channel := some x }))
      ∧ (f = 0x07 → edits neighbour 0 65535 (fun x => { g with tag := some x })))

/-- CLOSE DISCARD releases a live record, CLOSE of a RETIRED record frees its slot and answers GONE, CLOSE with the
cursor closed is NOT_OPEN, and another mode code INVALID (R184). A commit refused by R185 leaves everything; one that
passes writes its record once, as CommitOverlaysStagedFields says of it, not held, and closes the cursor; one that
makes the period of a CANDIDATE known confirms it, with its notice, where it satisfies confirmation (R186). -/
def Obligations.CloseReleases : Prop :=
  ∀ (s : State) (mode : Byte), s.Executing 0x43 [mode] →
    (mode ≠ 0x00 → mode ≠ 0x01 → exec .closeRecord s = .next (s.finish [0x01]))
    ∧ (mode = 0x00 ∨ mode = 0x01 →
    (s.cursor = none → exec .closeRecord s = .next (s.finish [0x0E]))
    ∧ (∀ c r, s.cursor = some c → s.table.record c.slot = some r →
      (r.state = .retired → exec .closeRecord s = .next
        (State.finish { s with table := s.table.release c.slot, cursor := none } [0x05]))
      ∧ (r.state ≠ .retired → mode = 0x00 → exec .closeRecord s = .next
        (State.finish { s.putRecord c.slot { r with held := false } with cursor := none } [0x00]))
      ∧ (r.state ≠ .retired → mode = 0x01 →
        (r.committed c.staged = none → exec .closeRecord s = .next (s.finish [0x01]))
        ∧ (∀ u clamped, r.committed c.staged = some (u, clamped) →
          let q := s.meetsRebase r c.staged u
          let confirmed := r.commitConfirms c.staged s.params
          ∃ t, exec .closeRecord s = .next t
            ∧ t.table.slot c.slot = ⟨(s.table.slot c.slot).gen, some
                (if confirmed then { q.asTracked with held := false } else { q with held := false })⟩
            ∧ (∀ j, j ≠ c.slot → t.table.slot j = s.table.slot j)
            ∧ t.table.seqCounter = s.table.seqCounter ∧ t.cursor = none
            ∧ t.notices = (if confirmed then
                (s.raise .ovenConfirmed (.handle c.slot (s.table.slot c.slot).gen) .none).notices
                else s.notices)
            ∧ t.link = { s.link with
                         phase := .result, consumed := 0
                         result := [if clamped then 0x80 else 0x00] }
            ∧ t = { s with table := t.table, cursor := t.cursor, notices := t.notices,
                           link := t.link }))))

/-- The commit of R185 and R186 on a lawful record with lawful staged values: a span edge is refused where the
edges cross, an edge is moved inward where the width passes 40, a staged P makes the period known, a NEIGHBOUR's
span follows its channel, a STEADY record's part stays, and nothing but the span and the part changes. A commit of P that
falls together with the rebase of an oven whose period was known has the outcomes of R66: the old P16 for the rebase
where the commit is taken first, and m and the advance by the new P16 where the rebase is (what falls together, and an
anchor that a report has moved since the rebase, are log entry 31's). -/
def Obligations.CommitOverlaysStagedFields : Prop :=
  ∀ (r : Record) (g : Staged), r.SpanLawful → g.Lawful →
    (∀ q clamped, r.committed g = some (q, clamped) →
      q.SpanLawful ∧ q = { r with span := q.span, part := q.part } ∧ q.kind = r.kind
      ∧ (∀ o, r.part = .oven o → q.part = .oven
          { o with
            periodKnown := o.periodKnown || g.p.isSome
            p16 := g.p.getD o.p16, d := g.d.getD o.d, w := g.w.getD o.w })
      ∧ (∀ tag ch a, r.part = .neighbour tag ch a → q.part = .neighbour
          ((g.tag.map (BitVec.ofNat 16)).getD tag) (g.channel.getD ch) a ∧ clamped = false)
      ∧ (∀ a, r.part = .steady a → q.part = .steady a)
      ∧ (r.kind ≠ .neighbour → g.spanLow = none → g.spanHigh = none →
          q.span = r.span ∧ clamped = false))
    ∧ (r.kind ≠ .neighbour →
      let l := g.spanLow.getD r.span.lo
      let h := g.spanHigh.getD r.span.hi
      (h < l → r.committed g = none)
      ∧ (l ≤ h → h - l ≤ 40 → ∃ q, r.committed g = some (q, false) ∧ q.span = { lo := l, hi := h })
      ∧ (l + 40 < h → g.spanLow = none → ∃ q, r.committed g = some (q, true)
          ∧ q.span = { lo := h - 40, hi := h })
      ∧ (l + 40 < h → g.spanLow.isSome = true → ∃ q, r.committed g = some (q, true)
          ∧ q.span = { lo := l, hi := l + 40 }))
    ∧ ∀ (s : State) (q : Record),
      let anchor (a : Time16) (p : Nat) : Time16 :=
        let m := (to16 s.now - a).toInt / p
        if 1 ≤ m then a + BitVec.ofInt 36 (m * p) else a
      (g.p = none ∨ (∀ o, r.part = .oven o → o.periodKnown = false)
        ∨ (s.timebase.boundaryDue = false ∧ s.timebase.epochTimer ≠ 0) → s.meetsRebase r g q = q)
      ∧ (∀ o new, r.part = .oven o → q.part = .oven new → o.periodKnown = true → g.p.isSome = true →
        (s.timebase.boundaryDue = true → s.meetsRebase r g q =
          { q with part := .oven { new with stood := some (o.stood.getD o.p16) } })
        ∧ (s.timebase.boundaryDue = false → (∀ x ∈ o.former, o.phaseKnown = false ∨ o.a16 ≠ x.after) →
          s.meetsRebase r g q = q)
        ∧ (∀ x, s.timebase.boundaryDue = false → s.timebase.epochTimer = 0 → o.phaseKnown = true →
          o.former = some x → o.a16 = x.after → s.meetsRebase r g q =
            { q with part := .oven { new with
                a16 := anchor x.before new.p16
                former := some { before := x.before, after := anchor x.before new.p16 } } }))

/-- NEXT with the cursor closed opens the lowest live record, or is EMPTY with NOT_OPEN as its commit status. NEXT on a
held RETIRED record frees it with GONE. NEXT on a held live record commits it as CLOSE COMMIT does, with OK or OK with
clamped as its commit status, and is INVALID where the commit is refused. Either then opens the first live record after
its slot, round the table: the committed record itself where no other is live, and none, with EMPTY, where a freed one
leaves none (R187). No record is created. -/
def Obligations.NextWalksTheTable : Prop :=
  ∀ s : State, s.Executing 0x44 [] → s.table.slots.length = 64 →
    let held (i : Nat) (r : Record) : Slot := ⟨(s.table.slot i).gen, some { r with held := true }⟩
    let opens (t : State) (i : Nat) (r : Record) (status : Byte) : Prop :=
      exec .nextRecord s = .next t ∧ t.table.slot i = held i r ∧ t.table.seqCounter = s.table.seqCounter
      ∧ t.cursor = some { slot := i, gen := (s.table.slot i).gen, staged := Staged.empty }
      ∧ t.link = { s.link with
          phase := .result, consumed := 0
          result := [0x00, status] ++ bytesOf 2 (i * 16 + (s.table.slot i).gen.toNat)
            ++ Record.image { r with held := true } }
    (s.cursor = none →
      ((∀ y ∈ s.table.records, y.2.state = .retired) →
        exec .nextRecord s = .next (s.finish [0x04, 0x0E]))
      ∧ (∀ i r, (i, r) ∈ s.table.records → r.state ≠ .retired →
        (∀ y ∈ s.table.records, y.2.state ≠ .retired → i ≤ y.1) →
        ∃ t, opens t i r 0x0E ∧ t = { s.putRecord i { r with held := true } with
          cursor := t.cursor, link := t.link }))
    ∧ (∀ c q, s.cursor = some c → c.slot < 64 → s.table.record c.slot = some q →
      let first (i : Nat) (r : Record) : Prop := (i, r) ∈ s.table.records ∧ r.state ≠ .retired
        ∧ ∀ y ∈ s.table.records, y.2.state ≠ .retired →
            (i + 63 - c.slot) % 64 ≤ (y.1 + 63 - c.slot) % 64
      (q.state = .retired →
        (∀ i r, first i r → ∃ t, opens t i r 0x05
          ∧ t.table.slot c.slot = ⟨(s.table.slot c.slot).gen + 1, none⟩
          ∧ (∀ j, j ≠ i → j ≠ c.slot → t.table.slot j = s.table.slot j)
          ∧ t = { s with table := t.table, cursor := t.cursor, link := t.link })
        ∧ ((∀ y ∈ s.table.records, y.2.state = .retired) → exec .nextRecord s = .next
          (State.finish { s with table := s.table.release c.slot, cursor := none } [0x04, 0x05])))
      ∧ (q.state ≠ .retired →
        (q.committed c.staged = none → exec .nextRecord s = .next (s.finish [0x01]))
        ∧ (∀ u clamped i r, q.committed c.staged = some (u, clamped) → first i r →
          let confirmed := q.commitConfirms c.staged s.params
          let v := s.meetsRebase q c.staged u
          let kept : Record := if confirmed then v.asTracked else v
          ∃ t, opens t i (if i = c.slot then kept else r) (if clamped then 0x80 else 0x00)
            ∧ (i ≠ c.slot → t.table.slot c.slot =
                ⟨(s.table.slot c.slot).gen, some { kept with held := false }⟩)
            ∧ (∀ j, j ≠ i → j ≠ c.slot → t.table.slot j = s.table.slot j)
            ∧ t.notices = (if confirmed then
                (s.raise .ovenConfirmed (.handle c.slot (s.table.slot c.slot).gen) .none).notices
                else s.notices)
            ∧ t = { s with table := t.table, cursor := t.cursor, notices := t.notices,
                           link := t.link })))

/-- SWEEP starts with its filter decoded and its maximum clamped, or is INVALID (R192, 12.1). An examination records a
slot whose record matches the filter as R193 states, with its generation, and moves on; the sweep stops at its maximum or
with 64 slots examined, with OK, the matches in eight places and the resume slot (R194, R195). -/
def Obligations.SweepExaminesSlots : Prop :=
  ∀ s : State,
    let two (v : Nat) : List Byte := [BitVec.ofNat 8 (v / 256), BitVec.ofNat 8 v]
    (∀ kb st fb cb k1 k0 start m : Byte, s.Executing 0x50 [kb, st, fb, cb, k1, k0, start, m] →
      s.sweep = none →
      (3 < kb.toNat ∨ fb.toNat = 0 ∨ 8 < fb.toNat ∨ 2 < cb.toNat ∨ 63 < start.toNat →
        exec .sweep s = .next (s.finish [0x01]))
      ∧ (∀ kind field cond,
        [none, some Kind.oven, some .neighbour, some .steady][kb.toNat]? = some kind →
        [none, some SweepField.spanLow, some .spanHigh, some .hits, some .share, some .period,
          some .channel, some .tag, some .idle][fb.toNat]? = some (some field) →
        [SweepCond.equal, .atMost, .atLeast][cb.toNat]? = some cond → start.toNat ≤ 63 →
        ∃ states : List RecState,
          (∀ x, x ∈ states ↔ match x with
            | .candidate => st.getLsbD 0 = true
            | .tracked => st.getLsbD 1 = true
            | .coasting => st.getLsbD 2 = true
            | .retired => st.getLsbD 3 = true ∧ st.getLsbD 7 = false)
          ∧ let w : Sweep :=
              { filter := { kind := kind, states := states, field := field, cond := cond,
                            key := k1.toNat * 256 + k0.toNat }
                maximum := max 1 (min 8 m.toNat), clamped := !(1 ≤ m.toNat && m.toNat ≤ 8)
                next := start.toNat, examined := 0, found := [] }
            exec .sweep s = .next { s with sweep := some w }))
    ∧ (∀ params w, s.Executing 0x50 params → s.sweep = some w →
      let slot := s.table.slot w.next
      let matched : Prop := ∃ r, slot.record = some r ∧ w.filter.Matches r
      ∃ found, (matched → found = w.found ++ [(w.next, slot.gen)]) ∧ (¬ matched → found = w.found) ∧
      let on : Sweep := { w with
        next := (w.next + 1) % 64, examined := w.examined + 1, found := found }
      let ends (resume : Byte) : State := State.finish { s with sweep := none }
        ([if w.clamped then 0x80 else 0x00, BitVec.ofNat 8 found.length]
          ++ (found.flatMap (fun x => two (x.1 * 16 + x.2.toNat))
            ++ List.replicate (2 * (8 - found.length)) 0xFF) ++ [resume])
      (found.length < w.maximum → w.examined + 1 < 64 →
        exec .sweepExamination s = .next { s with sweep := some on })
      ∧ (w.maximum ≤ found.length → w.examined + 1 < 64 →
        exec .sweepExamination s = .next (ends (BitVec.ofNat 8 on.next)))
      ∧ (64 ≤ w.examined + 1 → exec .sweepExamination s = .next (ends 0xFF)))

/-! ### The laws, kept by every step -/

/-- Every law of Sys2Proof/Safety.lean holds at State.reset. -/
def Obligations.LawsHoldAtReset : Prop :=
  State.reset.SpanLaw ∧ State.reset.OvenLaw ∧ State.reset.AirtimeLaw ∧ State.reset.PinLaw
    ∧ State.reset.HeldLaw ∧ State.reset.QueueLaw ∧ State.reset.AttentionLaw ∧ State.reset.ChainLaw
    ∧ State.reset.RangeLaw ∧ State.reset.ClockLaw ∧ State.reset.LinkLaw

/-- The law of the span (R8), the law of the oven part (R9), and the airtime fields in their ranges (R70, R74). -/
def Obligations.StepKeepsRecordLaws : Prop :=
  ∀ s t : State, step s = .next t →
    (s.SpanLaw → t.SpanLaw) ∧ (s.OvenLaw → t.OvenLaw) ∧ (s.AirtimeLaw → t.AirtimeLaw)

/-- The counts of R3 are those of the slots, and the law of pinning (R6). -/
def Obligations.StepKeepsPinLaw : Prop :=
  ∀ s t : State, s.PinLaw → step s = .next t → t.PinLaw

/-- The law of the RETIRED state (R23) and the held record (R180). -/
def Obligations.StepKeepsHeldLaw : Prop :=
  ∀ s t : State, s.HeldLaw → step s = .next t → t.HeldLaw

/-- The law of the queues (R33, R85, R197); ATTENTION is asserted exactly where R203 says. -/
def Obligations.StepKeepsQueueAndAttentionLaws : Prop :=
  ∀ s t : State, step s = .next t →
    (s.QueueLaw → t.QueueLaw) ∧ (s.AttentionLaw → t.AttentionLaw)

/-- The chains stay within R109, and the two laws of R114: no channel twice, and every channel in use permitted, with a
set tune code for each target and for each present channel that a move has placed, as far as the record shows it: in
DWELL, and in READY with origin ADVISOR (a READY chain of origin CONTROL may have been placed by SET CHANNEL, and there
the record does not tell). The domain is A while its lock is clear (R112). -/
def Obligations.StepKeepsChainLaw : Prop :=
  ∀ s t : State, s.ChainLaw → step s = .next t → t.ChainLaw

/-- The saturating counts, the parameters and the levels stay in their ranges, and the clock state agrees with the
qualification (R148 to R150, R154). The work of a boundary is due only while the epoch timer stands at 0, and that of
mid-epoch only while it stands at 50,000, so no time passes over either (R147, log entry 7). An automatic move that the
controller has not taken was handed over at this very mid-epoch (R141, log entry 15). -/
def Obligations.StepKeepsRangeAndClockLaws : Prop :=
  ∀ s t : State, step s = .next t → (s.RangeLaw → t.RangeLaw) ∧ (s.ClockLaw → t.ClockLaw)

/-- The link holds what its phase says, an exchange under way began in the present phase or in an EXECUTION that has
ended since, a sweep and a PREVIEW stand in EXECUTION, and the engine serves what it says and is IDLE only while no work
waits (R164, R161, R168, R88, R103; log entries 29 and 30). -/
def Obligations.StepKeepsLinkLaw : Prop :=
  ∀ s t : State, s.LinkLaw → step s = .next t → t.LinkLaw

/-- The law of the handle (R1, R4): a command other than POWER_ON_RESET leaves a slot's generation and the kind of
its record, or it increments the generation of a slot that held a record. A pending CLOCK_FALLBACK leaves the list by
FETCH NOTICE or a reset alone (R203). -/
def Obligations.HandlesAndClockNoticeEndure : Prop :=
  ∀ (c : Instr) (s t : State), c ≠ .powerOnReset → exec c s = .next t →
    (∀ i r, s.table.record i = some r →
      ((t.table.slot i).gen = (s.table.slot i).gen ∧ (t.table.record i).map Record.kind = some r.kind)
        ∨ (t.table.slot i).gen = (s.table.slot i).gen + 1)
    ∧ (∀ i, s.table.record i = none → (t.table.slot i).gen = (s.table.slot i).gen)
    ∧ (c ≠ .reset → c ≠ .fetchNotice →
      (∃ e ∈ s.notices.entries, e.kind = .clockFallback) →
      ∃ e ∈ t.notices.entries, e.kind = .clockFallback)

/-- The transitions of R109 and R148: a chain and the clock change state by their rows' causes alone. Time passes in the
timed rows and in the idle step alone, over no instant, request or automatic move that is still to be taken, and the
epoch timer advances with the counter (R146, R147): by the microseconds to the row's instant, and by one in an idle step (log
entries 7 and 8). A request that stands in EXECUTION and has not acted acts in the next idle step (R167). -/
def Obligations.StatesChangeByTheirCauses : Prop :=
  (∀ (i : Instr) (s t : State), i ≠ .powerOnReset → s.timebase.epochTimer < 100000 → exec i s = .next t →
    ∃ n, s.Reaches n ∧ t.timebase.time = s.timebase.time + BitVec.ofNat 32 n
      ∧ t.timebase.epochTimer = (s.timebase.epochTimer + n) % 100000
      ∧ (n = 0 ∨ i = .epochBoundary ∨ i = .midEpoch ∨ i = .qualificationExpiry
          ∨ ∃ c, i = .lockTimerExpiry c ∨ i = .dwellTimerExpiry c))
  ∧ (∀ s t : State, s.pending = [] → s.timebase.epochTimer < 100000 → step s = .next t →
    t.pending = [] ∧
      ((t.timebase.time = s.timebase.time ∧ t.timebase.epochTimer = s.timebase.epochTimer)
        ∨ (s.Reaches 1 ∧ t = { s with timebase := s.timebase.later 1, freeCount := s.freeCount + 1 })))
  ∧ (∀ (s : State) (b : Byte) (row : RequestRow), s.pending = [] → s.Unserved → s.link.code = some b →
    requestRow b = some row →
    (s.predictor.engine = .idle → s.predictor.queue = [] ∧ s.predictor.preview = none) →
    step s = exec row.command { s with freeCount := s.freeCount + 1 })
  ∧ ∀ (i : Instr) (s t : State), i ≠ .powerOnReset → i ≠ .reset → exec i s = .next t →
    (∀ c, (t.chain c).state ≠ (s.chain c).state →
      ((t.chain c).state = .retuning ∧ (i = .move ∨ i = .step ∨ i = .automaticMove c))
      ∨ ((s.chain c).state ≠ .retuning ∧ (t.chain c).state = .ready
          ∧ (i = .setChannel ∨ i = .abortMove ∨ i = .dwellTimerExpiry c))
      ∨ ((s.chain c).state = .retuning ∧ i = .lockAsserted c
          ∧ ((t.chain c).state = .dwell ∨ (t.chain c).state = .ready))
      ∨ ((t.chain c).state = .fault ∧ (i = .lockTimerExpiry c ∨ i = .lockDeasserted c)))
    ∧ (t.timebase.clock ≠ s.timebase.clock →
      (i = .qualificationExpiry ∧ s.timebase.clock = .internalStart ∧ t.timebase.clock = .reference)
      ∨ (i = .referenceLoss ∧ s.timebase.clock = .reference ∧ t.timebase.clock = .fallback)
      ∨ (i = .restoreClock ∧ s.timebase.clock = .fallback ∧ t.timebase.clock = .reference))
end

