-- ==== Sys2Proof/Laws/State.lean ====
section
/-! SUPPORT. What each update of the state leaves and changes, one lemma per field, so that no later proof
unfolds a record update. -/

namespace Sys2Proof.Machine

variable (s : State)

/-! ### A chain -/

@[simp] theorem Radio.chain_setChain (r : Radio) (c : Chain) (x : ChainRec) :
    (r.setChain c x).chain c = x := by cases c <;> rfl

@[simp] theorem Radio.chain_setChain_other (r : Radio) (c : Chain) (x : ChainRec) :
    (r.setChain c x).chain (otherChain c) = r.chain (otherChain c) := by cases c <;> rfl

@[simp] theorem otherChain_otherChain (c : Chain) : otherChain (otherChain c) = c := by cases c <;> rfl

theorem otherChain_ne (c : Chain) : otherChain c ≠ c := by cases c <;> decide

theorem otherChain_of_ne {c d : Chain} (h : d ≠ c) : d = otherChain c := by
  cases c <;> cases d <;> first | rfl | exact absurd rfl h

@[simp] theorem Radio.setChain_tuneMap (r : Radio) (c : Chain) (x : ChainRec) :
    (r.setChain c x).tuneMap = r.tuneMap := by cases c <;> rfl

@[simp] theorem Radio.setChain_domain (r : Radio) (c : Chain) (x : ChainRec) :
    (r.setChain c x).domain = r.domain := by cases c <;> rfl

@[simp] theorem Radio.setChain_domainLock (r : Radio) (c : Chain) (x : ChainRec) :
    (r.setChain c x).domainLock = r.domainLock := by cases c <;> rfl

@[simp] theorem State.radio_setChain (c : Chain) (x : ChainRec) :
    (s.setChain c x).radio = s.radio.setChain c x := rfl
@[simp] theorem State.chain_setChain (c : Chain) (x : ChainRec) : (s.setChain c x).chain c = x :=
  s.radio.chain_setChain c x
@[simp] theorem State.chain_setChain_other (c : Chain) (x : ChainRec) :
    (s.setChain c x).chain (otherChain c) = s.chain (otherChain c) := s.radio.chain_setChain_other c x
@[simp] theorem State.timebase_setChain (c : Chain) (x : ChainRec) :
    (s.setChain c x).timebase = s.timebase := rfl
@[simp] theorem State.table_setChain (c : Chain) (x : ChainRec) : (s.setChain c x).table = s.table := rfl
@[simp] theorem State.intake_setChain (c : Chain) (x : ChainRec) :
    (s.setChain c x).intake = s.intake := rfl
@[simp] theorem State.predictor_setChain (c : Chain) (x : ChainRec) :
    (s.setChain c x).predictor = s.predictor := rfl
@[simp] theorem State.advisor_setChain (c : Chain) (x : ChainRec) :
    (s.setChain c x).advisor = s.advisor := rfl
@[simp] theorem State.link_setChain (c : Chain) (x : ChainRec) : (s.setChain c x).link = s.link := rfl
@[simp] theorem State.cursor_setChain (c : Chain) (x : ChainRec) :
    (s.setChain c x).cursor = s.cursor := rfl
@[simp] theorem State.sweep_setChain (c : Chain) (x : ChainRec) : (s.setChain c x).sweep = s.sweep := rfl
@[simp] theorem State.notices_setChain (c : Chain) (x : ChainRec) :
    (s.setChain c x).notices = s.notices := rfl
@[simp] theorem State.params_setChain (c : Chain) (x : ChainRec) :
    (s.setChain c x).params = s.params := rfl
@[simp] theorem State.freeCount_setChain (c : Chain) (x : ChainRec) :
    (s.setChain c x).freeCount = s.freeCount := rfl
@[simp] theorem State.pending_setChain (c : Chain) (x : ChainRec) :
    (s.setChain c x).pending = s.pending := rfl
@[simp] theorem State.now_setChain (c : Chain) (x : ChainRec) : (s.setChain c x).now = s.now := rfl

/-! ### A record of the table -/

@[simp] theorem State.table_putRecord (i : Nat) (r : Record) :
    (s.putRecord i r).table = s.table.put i r := rfl
@[simp] theorem State.timebase_putRecord (i : Nat) (r : Record) :
    (s.putRecord i r).timebase = s.timebase := rfl
@[simp] theorem State.intake_putRecord (i : Nat) (r : Record) :
    (s.putRecord i r).intake = s.intake := rfl
@[simp] theorem State.predictor_putRecord (i : Nat) (r : Record) :
    (s.putRecord i r).predictor = s.predictor := rfl
@[simp] theorem State.radio_putRecord (i : Nat) (r : Record) : (s.putRecord i r).radio = s.radio := rfl
@[simp] theorem State.advisor_putRecord (i : Nat) (r : Record) :
    (s.putRecord i r).advisor = s.advisor := rfl
@[simp] theorem State.link_putRecord (i : Nat) (r : Record) : (s.putRecord i r).link = s.link := rfl
@[simp] theorem State.cursor_putRecord (i : Nat) (r : Record) :
    (s.putRecord i r).cursor = s.cursor := rfl
@[simp] theorem State.sweep_putRecord (i : Nat) (r : Record) : (s.putRecord i r).sweep = s.sweep := rfl
@[simp] theorem State.notices_putRecord (i : Nat) (r : Record) :
    (s.putRecord i r).notices = s.notices := rfl
@[simp] theorem State.params_putRecord (i : Nat) (r : Record) :
    (s.putRecord i r).params = s.params := rfl
@[simp] theorem State.freeCount_putRecord (i : Nat) (r : Record) :
    (s.putRecord i r).freeCount = s.freeCount := rfl
@[simp] theorem State.pending_putRecord (i : Nat) (r : Record) :
    (s.putRecord i r).pending = s.pending := rfl

/-! ### The end of a request -/

@[simp] theorem State.link_finish (bs : List Byte) :
    (s.finish bs).link = { s.link with phase := .result, result := bs, consumed := 0 } := rfl
@[simp] theorem State.timebase_finish (bs : List Byte) : (s.finish bs).timebase = s.timebase := rfl
@[simp] theorem State.table_finish (bs : List Byte) : (s.finish bs).table = s.table := rfl
@[simp] theorem State.intake_finish (bs : List Byte) : (s.finish bs).intake = s.intake := rfl
@[simp] theorem State.predictor_finish (bs : List Byte) : (s.finish bs).predictor = s.predictor := rfl
@[simp] theorem State.radio_finish (bs : List Byte) : (s.finish bs).radio = s.radio := rfl
@[simp] theorem State.advisor_finish (bs : List Byte) : (s.finish bs).advisor = s.advisor := rfl
@[simp] theorem State.cursor_finish (bs : List Byte) : (s.finish bs).cursor = s.cursor := rfl
@[simp] theorem State.sweep_finish (bs : List Byte) : (s.finish bs).sweep = s.sweep := rfl
@[simp] theorem State.notices_finish (bs : List Byte) : (s.finish bs).notices = s.notices := rfl
@[simp] theorem State.params_finish (bs : List Byte) : (s.finish bs).params = s.params := rfl
@[simp] theorem State.freeCount_finish (bs : List Byte) : (s.finish bs).freeCount = s.freeCount := rfl
@[simp] theorem State.pending_finish (bs : List Byte) : (s.finish bs).pending = s.pending := rfl
@[simp] theorem State.chain_finish (bs : List Byte) (c : Chain) :
    (s.finish bs).chain c = s.chain c := rfl

/-- A request that ends with a result byte alone ends with its code. -/
theorem State.answer_eq (r : Result) : s.answer r = s.finish [r.code] := rfl

/-- The first byte of an OK result is 0x80 where the clamped flag is set. -/
theorem State.answerOk_eq (clamped : Bool) (bs : List Byte) :
    s.answerOk clamped bs = s.finish ((if clamped then 0x80 else 0x00) :: bs) := by
  cases clamped <;> rfl

/-! ### Attention, the status byte, and the passing of time -/

@[simp] theorem State.judge_entries : s.judge.notices.entries = s.notices.entries := rfl
@[simp] theorem State.judge_levels : s.judge.notices.levels = s.notices.levels := rfl

/-- A judgement changes the ATTENTION line alone. -/
theorem State.judge_eq : s.judge = { s with notices :=
    { s.notices with attention := s.notices.judgement s.params.attentionThreshold } } := rfl

/-- A completed exchange of the status byte changes MISO and the latch alone. -/
theorem State.shiftStatus_eq :
    s.shiftStatus = { s with link := { s.link with miso := some s.shown.byte, begun := none } } := rfl

@[simp] theorem State.phase_shiftStatus : s.shiftStatus.link.phase = s.link.phase := rfl
@[simp] theorem State.pending_shiftStatus : s.shiftStatus.pending = s.pending := rfl

/-- The start of an exchange changes the latch alone. -/
theorem State.beginExchange_eq :
    s.beginExchange = { s with link := { s.link with begun := some s.standing } } := rfl

@[simp] theorem State.pending_beginExchange : s.beginExchange.pending = s.pending := rfl

/-- With no exchange begun the status byte shows what stands. -/
theorem State.shown_of_none {s : State} (h : s.link.begun = none) : s.shown = s.standing := by
  simp [State.shown, h]

/-- An exchange under way shows what stood at its start. -/
theorem State.shown_of_some {s : State} {x : Standing} (h : s.link.begun = some x) : s.shown = x := by
  simp [State.shown, h]

@[simp] theorem State.pending_tick : s.tick.pending = s.pending := rfl
@[simp] theorem State.pending_chosen : s.chosen.pending = s.pending := rfl
@[simp] theorem State.freeCount_chosen : s.chosen.freeCount = s.freeCount + 1 := rfl

@[simp] theorem Timebase.advance_clock (t : Timebase) (n : Nat) : (t.advance n).clock = t.clock := rfl
@[simp] theorem Timebase.advance_qual (t : Timebase) (n : Nat) : (t.advance n).qual = t.qual := rfl
@[simp] theorem Timebase.advance_refPresent (t : Timebase) (n : Nat) :
    (t.advance n).refPresent = t.refPresent := rfl
@[simp] theorem Timebase.advance_time (t : Timebase) (n : Nat) :
    (t.advance n).time = t.time + BitVec.ofNat 32 n := rfl
@[simp] theorem Timebase.advance_epochTimer (t : Timebase) (n : Nat) :
    (t.advance n).epochTimer = (t.epochTimer + n) % 100000 := rfl

/-- No time passes in no microseconds (R147: the timer stands below 100,000). -/
theorem Timebase.advance_zero {t : Timebase} (h : t.epochTimer < 100000) : t.advance 0 = t := by
  have h1 : ¬ epochLength ≤ t.epochTimer := by unfold epochLength; omega
  have h2 : ¬ epochLength + midEpochAt ≤ t.epochTimer := by unfold epochLength midEpochAt; omega
  have h3 : ¬ (t.epochTimer < midEpochAt ∧ midEpochAt ≤ t.epochTimer) := by unfold midEpochAt; omega
  have h4 : t.epochTimer % epochLength = t.epochTimer := Nat.mod_eq_of_lt h
  unfold Timebase.advance
  simp only [← Bool.decide_and, h1, h2, h3, h4, decide_false, Bool.or_false, Nat.add_zero,
    BitVec.add_zero]

end Sys2Proof.Machine
end

