-- ==== Sys2Proof/Laws/Ops.lean ====
section
/-! SUPPORT. What the shared operations can do, said once: the request in execution, slots and records, a
raised notice, and the passing of time. -/

namespace Sys2Proof.Machine

/-! ### The request in execution -/

/-- A request is in execution exactly where the link says so. -/
theorem State.request_eq_some {s : State} {code : Byte} {bs : List Byte} :
    s.request code = some bs ↔ s.Executing code bs := by
  unfold State.request State.Executing
  split <;> simp_all

/-- The meaning of a request reads its parameter bytes. -/
theorem State.Executing.request {s : State} {code : Byte} {bs : List Byte}
    (h : s.Executing code bs) : s.request code = some bs := State.request_eq_some.2 h

/-! ### The first of the best -/

theorem firstBest_fold_mem {α : Type} (better : α → α → Bool) (xs : List α) (x : α) :
    xs.foldl (fun best y => if better y best then y else best) x ∈ x :: xs := by
  induction xs generalizing x with
  | nil => simp
  | cons y ys ih =>
    simp only [List.foldl_cons]
    split
    · exact List.mem_cons_of_mem _ (ih y)
    · rcases List.mem_cons.1 (ih x) with h | h
      · rw [h]; exact List.mem_cons_self
      · exact List.mem_cons_of_mem _ (List.mem_cons_of_mem _ h)

/-- What is found is an element of the list. -/
theorem firstBest_mem {α : Type} {better : α → α → Bool} {l : List α} {x : α}
    (h : firstBest better l = some x) : x ∈ l := by
  cases l with
  | nil => simp [firstBest] at h
  | cons y ys =>
    simp only [firstBest, Option.some.injEq] at h
    exact h ▸ firstBest_fold_mem better ys y

/-- Nothing is found in an empty list alone. -/
@[simp] theorem firstBest_eq_none {α : Type} {better : α → α → Bool} {l : List α} :
    firstBest better l = none ↔ l = [] := by cases l <;> simp [firstBest]

/-! ### Slots and records -/

@[simp] theorem Table.length_replace (t : Table) (i : Nat) (x : Slot) :
    (t.replace i x).slots.length = t.slots.length := by simp [Table.replace]

/-- A replaced slot reads as its new contents. -/
@[simp] theorem Table.slot_replace {t : Table} {i : Nat} {x : Slot} (h : i < t.slots.length) :
    (t.replace i x).slot i = x := by
  simp [Table.slot, Table.replace, List.getD, h]

/-- A replacement leaves every other slot as it was. -/
@[simp] theorem Table.slot_replace_ne {t : Table} {i j : Nat} {x : Slot} (h : j ≠ i) :
    (t.replace i x).slot j = t.slot j := by
  simp [Table.slot, Table.replace, List.getD, List.getElem?_set_ne h.symm]

@[simp] theorem Table.seqCounter_replace (t : Table) (i : Nat) (x : Slot) :
    (t.replace i x).seqCounter = t.seqCounter := rfl

@[simp] theorem Table.counts_replace (t : Table) (i : Nat) (x : Slot) :
    (t.replace i x).counts = (t.counts.inc x.state).dec (t.slot i).state := rfl

@[simp] theorem Table.pinned_replace (t : Table) (i : Nat) (x : Slot) :
    (t.replace i x).pinned = t.pinned + x.pinnedOne - (t.slot i).pinnedOne := rfl

/-- An occupied slot is a slot of the table. -/
theorem Table.lt_of_record {t : Table} {i : Nat} {r : Record} (h : t.record i = some r) :
    i < t.slots.length := by
  by_contra hi
  simp [Table.record, Table.slot, List.getD, List.getElem?_eq_none (Nat.le_of_not_lt hi), Slot.reset] at h

/-- A put record is read back, with the slot's generation. -/
@[simp] theorem Table.slot_put {t : Table} {i : Nat} {r : Record} (h : i < t.slots.length) :
    (t.put i r).slot i = ⟨(t.slot i).gen, some r⟩ := Table.slot_replace h

@[simp] theorem Table.slot_put_ne {t : Table} {i j : Nat} {r : Record} (h : j ≠ i) :
    (t.put i r).slot j = t.slot j := Table.slot_replace_ne h

/-- A released slot is FREE, its generation incremented (R24). -/
@[simp] theorem Table.slot_release {t : Table} {i : Nat} (h : i < t.slots.length) :
    (t.release i).slot i = ⟨(t.slot i).gen + 1, none⟩ := Table.slot_replace h

@[simp] theorem Table.slot_release_ne {t : Table} {i j : Nat} (h : j ≠ i) :
    (t.release i).slot j = t.slot j := Table.slot_replace_ne h

/-- The occupied slots and their records. -/
theorem Table.mem_records {t : Table} {i : Nat} {r : Record} :
    (i, r) ∈ t.records ↔ t.record i = some r := by
  simp only [Table.records, List.mem_filterMap, Table.record, Table.slot, List.getD]
  constructor
  · rintro ⟨⟨x, j⟩, hx, h⟩
    obtain ⟨q, hq, heq⟩ := Option.map_eq_some_iff.1 h
    cases heq
    rw [List.mem_zipIdx_iff_getElem?] at hx
    simp only at hx hq
    simp [hx, hq]
  · intro h
    cases hx : t.slots[i]? with
    | none => simp [hx, Slot.reset] at h
    | some x =>
      rw [hx, Option.getD_some] at h
      exact ⟨(x, i), by simpa [List.mem_zipIdx_iff_getElem?] using hx, by simp [h]⟩

theorem Table.mapSlots_slots (t : Table) (f : Slot → Slot) : (t.mapSlots f).slots = t.slots.map f := rfl

theorem Table.foldl_moved_seqCounter (f : Slot → Slot) (xs : List Slot) (t : Table) :
    (xs.foldl (fun acc x => acc.moved x (f x)) t).seqCounter = t.seqCounter := by
  induction xs generalizing t with
  | nil => rfl
  | cons x xs ih => rw [List.foldl_cons, ih]; rfl

@[simp] theorem Table.mapSlots_seqCounter (t : Table) (f : Slot → Slot) :
    (t.mapSlots f).seqCounter = t.seqCounter := Table.foldl_moved_seqCounter f t.slots t

/-- Every slot of the table is what the function makes of it. -/
theorem Table.slot_mapSlots {t : Table} {f : Slot → Slot} {i : Nat} (h : i < t.slots.length) :
    (t.mapSlots f).slot i = f (t.slot i) := by
  simp [Table.slot, Table.mapSlots_slots, List.getD, h]

/-- A taken slot is FREE in the table answered: it was the lowest FREE one, or the oldest unheld candidate
has been evicted from it (R12). -/
theorem Table.takeSlot_cases {t t' : Table} {i : Nat} (h : t.takeSlot = some (i, t')) :
    (t.lowestFree = some i ∧ t' = t)
      ∨ (t.lowestFree = none ∧ t.evictable = some i ∧ t' = t.release i) := by
  unfold Table.takeSlot at h
  split at h
  · next hf => simp only [Option.some.injEq, Prod.mk.injEq] at h; exact .inl ⟨h.1 ▸ hf, h.2.symm⟩
  · next hf =>
    split at h
    · next he =>
      simp only [Option.some.injEq, Prod.mk.injEq] at h
      obtain ⟨rfl, rfl⟩ := h
      exact .inr ⟨hf, he, rfl⟩
    · simp at h

/-- No slot can be had exactly where none is FREE and no candidate can be evicted (R12, R13). -/
theorem Table.takeSlot_eq_none {t : Table} :
    t.takeSlot = none ↔ t.lowestFree = none ∧ t.evictable = none := by
  unfold Table.takeSlot
  cases t.lowestFree <;> cases t.evictable <;> simp

/-! ### Raising a notice -/

/-- A raised notice changes the entries and the line, or nothing where its kind's level is 0 (R199). -/
theorem State.raise_cases (s : State) (k : NoticeKind) (subj : Subject) (data : NoticeData) :
    (s.notices.levels.level k = 0 ∧ s.raise k subj data = s)
      ∨ (s.notices.levels.level k ≠ 0 ∧
          s.raise k subj data = State.judge { s with notices := { s.notices with
            entries := enterNotice s.notices.entries s.notices.levels k subj data } }) := by
  unfold State.raise
  split
  · exact .inl ⟨‹_›, rfl⟩
  · exact .inr ⟨‹_›, rfl⟩

/-- A raised notice changes nothing but the notices. -/
theorem State.raise_frame (s : State) (k : NoticeKind) (subj : Subject) (data : NoticeData) :
    s.raise k subj data = { s with notices := (s.raise k subj data).notices } := by
  unfold State.raise State.judge
  split <;> rfl

variable (s : State) (k : NoticeKind) (subj : Subject) (data : NoticeData)

@[simp] theorem State.raise_timebase : (s.raise k subj data).timebase = s.timebase := by
  rw [State.raise_frame]
@[simp] theorem State.raise_table : (s.raise k subj data).table = s.table := by rw [State.raise_frame]
@[simp] theorem State.raise_intake : (s.raise k subj data).intake = s.intake := by rw [State.raise_frame]
@[simp] theorem State.raise_predictor : (s.raise k subj data).predictor = s.predictor := by
  rw [State.raise_frame]
@[simp] theorem State.raise_radio : (s.raise k subj data).radio = s.radio := by rw [State.raise_frame]
@[simp] theorem State.raise_advisor : (s.raise k subj data).advisor = s.advisor := by
  rw [State.raise_frame]
@[simp] theorem State.raise_link : (s.raise k subj data).link = s.link := by rw [State.raise_frame]
@[simp] theorem State.raise_cursor : (s.raise k subj data).cursor = s.cursor := by rw [State.raise_frame]
@[simp] theorem State.raise_sweep : (s.raise k subj data).sweep = s.sweep := by rw [State.raise_frame]
@[simp] theorem State.raise_params : (s.raise k subj data).params = s.params := by rw [State.raise_frame]
@[simp] theorem State.raise_freeCount : (s.raise k subj data).freeCount = s.freeCount := by
  rw [State.raise_frame]
@[simp] theorem State.raise_pending : (s.raise k subj data).pending = s.pending := by
  rw [State.raise_frame]

@[simp] theorem State.raise_levels :
    (s.raise k subj data).notices.levels = s.notices.levels := by
  rcases s.raise_cases k subj data with ⟨_, h⟩ | ⟨_, h⟩
  · rw [h]
  · rw [h]; rfl

@[simp] theorem State.chain_raise (c : Chain) : (s.raise k subj data).chain c = s.chain c := by
  simp [State.chain]

variable {s k subj data}

/-- A folded entry keeps its key. -/
@[simp] theorem Entry.key_fold (e : Entry) (data : NoticeData) : (e.fold data).key = e.key := rfl

/-- A modification of the first entry keeps the length of the list. -/
@[simp] theorem length_modifyFirst (p : Entry → Bool) (f : Entry → Entry) (es : List Entry) :
    (modifyFirst p f es).length = es.length := by
  induction es with
  | nil => rfl
  | cons e es ih => unfold modifyFirst; split <;> simp [ih]

/-- What a modification of the first entry does. -/
theorem modifyFirst_append {p : Entry → Bool} {f : Entry → Entry} {l r : List Entry} {e : Entry}
    (hl : ∀ x ∈ l, p x = false) (he : p e = true) : modifyFirst p f (l ++ e :: r) = l ++ f e :: r := by
  induction l with
  | nil => simp [modifyFirst, he]
  | cons x l ih =>
    simp only [List.mem_cons, forall_eq_or_imp] at hl
    simp [modifyFirst, hl.1, ih hl.2]

/-! ### Creation and confirmation -/

/-- A creation changes the table alone, or raises TABLE_FULL where no slot can be had (R12 to R14). -/
theorem State.create_cases (s : State) (span : Span) (part : Part) :
    (∃ i t, s.table.takeSlot = some (i, t)
        ∧ s.create span part = { s with table := t.enter i (learnedRecord span part) })
      ∨ (s.table.takeSlot = none ∧ s.create span part = s.raise .tableFull .none .none) := by
  unfold State.create
  split
  · exact .inl ⟨_, _, ‹_›, rfl⟩
  · exact .inr ⟨‹_›, rfl⟩

/-- A confirmation check confirms a candidate, or changes nothing (R16). -/
theorem State.confirm_cases (s : State) (i : Nat) :
    (∃ r, s.table.record i = some r ∧ r.state = .candidate ∧ s.params.confirms r = true
        ∧ s.confirm i =
            (s.putRecord i r.confirmed).raise r.kind.confirmedNotice (s.table.subject i) .none)
      ∨ s.confirm i = s := by
  unfold State.confirm
  split
  · next r hr =>
    split
    · next h => exact .inl ⟨r, hr, h.1, h.2, rfl⟩
    · exact .inr rfl
  · exact .inr rfl

/-! ### Time -/

/-- Time passes to an expiry that is not behind the counter (R146). -/
theorem Timebase.advance_remaining {t : Timebase} {e : Time} (h : 0 ≤ (e - t.time).toInt) :
    (t.advance (t.remaining e)).time = e := by
  have : BitVec.ofNat 32 (e - t.time).toInt.toNat = e - t.time := by
    rw [← BitVec.ofInt_natCast, Int.toNat_of_nonneg h, BitVec.ofInt_toInt]
  rw [Timebase.advance_time, Timebase.remaining, interval, this]
  bv_omega

/-- Nothing remains to an expiry that is behind the counter. -/
theorem Timebase.remaining_past {t : Timebase} {e : Time} (h : (e - t.time).toInt < 0) :
    t.remaining e = 0 := Int.toNat_of_nonpos (le_of_lt h)

/-- An automatic move is still to be taken at one of the chains. -/
theorem State.moveDue_iff (s : State) :
    s.moveDue = true ↔ ∃ c, (s.chain c).handed.isSome = true := by
  rw [State.moveDue, Bool.or_eq_true]
  exact ⟨fun h => h.elim (⟨.A, ·⟩) (⟨.B, ·⟩), fun ⟨c, h⟩ => by cases c <;> [exact .inl h; exact .inr h]⟩

/-- The gate of the timed rows says what the statements say (R147). -/
theorem State.mayPass_iff {s : State} {n : Nat} (h : s.timebase.epochTimer < 100000) :
    s.mayPass n = true ↔ s.Reaches n := by
  have hdue : s.requestDue = true ↔ s.Unserved := by
    simp [State.requestDue, State.Unserved, sweepCode, previewCode, and_assoc, imp_iff_not_or]
  have hb : n ≤ s.timebase.untilBoundary ↔
      (s.timebase.boundaryDue = true → n = 0) ∧ s.timebase.epochTimer + n ≤ 100000 := by
    unfold Timebase.untilBoundary epochLength
    split <;> simp_all <;> omega
  have hm : n ≤ s.timebase.untilMidEpoch ∧ s.timebase.epochTimer + n ≤ 100000 ↔
      (s.timebase.midDue = true → n = 0) ∧ s.timebase.epochTimer + n ≤ 100000
        ∧ (s.timebase.epochTimer < 50000 → s.timebase.epochTimer + n ≤ 50000) := by
    unfold Timebase.untilMidEpoch epochLength midEpochAt
    split <;> (try split) <;> simp_all <;> omega
  have hr (e : Time) : n ≤ s.timebase.remaining e ↔ (n : Int) ≤ max 0 (e - s.now).toInt := by
    simp only [Timebase.remaining, interval, State.now]
    omega
  have hc (c : Chain) : (∀ e ∈ (s.chain c).expiry, n ≤ s.timebase.remaining e) ↔
      (∀ e, (s.chain c).state = .retuning → (s.chain c).lockTimer = some e →
          (n : Int) ≤ max 0 (e - s.now).toInt)
        ∧ ∀ e, (s.chain c).state = .dwell → (s.chain c).dwellTimer = some e →
          (n : Int) ≤ max 0 (e - s.now).toInt := by
    simp only [← hr, ChainRec.expiry]
    cases (s.chain c).state <;> simp
  have hq : (∀ e ∈ s.timebase.qual.expiry, n ≤ s.timebase.remaining e) ↔
      ∀ e, s.timebase.qual = .qualifying e → (n : Int) ≤ max 0 (e - s.now).toInt := by
    simp only [← hr]
    cases s.timebase.qual <;> simp [Qualification.expiry]
  have hall : s.mayPass n = true ↔
      (n ≤ s.timebase.untilBoundary ∧ n ≤ s.timebase.untilMidEpoch
        ∧ (∀ e ∈ s.radio.chainA.expiry, n ≤ s.timebase.remaining e)
        ∧ (∀ e ∈ s.radio.chainB.expiry, n ≤ s.timebase.remaining e)
        ∧ ∀ e ∈ s.timebase.qual.expiry, n ≤ s.timebase.remaining e)
        ∧ (n = 0 ∨ (s.requestDue || s.moveDue) = false) := by
    simp only [State.mayPass, State.instants]
    cases s.radio.chainA.expiry <;> cases s.radio.chainB.expiry <;> cases s.timebase.qual.expiry <;>
      simp [and_assoc]
  have hA := hc .A
  have hB := hc .B
  have chains {p : Chain → Prop} : (∀ c, p c) ↔ p .A ∧ p .B :=
    ⟨fun h => ⟨h .A, h .B⟩, fun h c => by cases c <;> [exact h.1; exact h.2]⟩
  have hu : (n = 0 ∨ (s.requestDue || s.moveDue) = false) ↔
      (s.Unserved ∨ (∃ c, (s.chain c).handed.isSome = true) → n = 0) := by
    rw [← hdue, ← s.moveDue_iff]; cases s.requestDue <;> cases s.moveDue <;> simp
  rw [hall, State.Reaches, hu, ← hq]
  simp only [State.chain, Radio.chain] at hA hB
  rw [hA, hB]
  simp only [chains, State.chain, Radio.chain]
  constructor
  · rintro ⟨⟨h1, h2, ⟨a1, a2⟩, ⟨b1, b2⟩, h5⟩, h6⟩
    obtain ⟨k1, k2⟩ := hb.1 h1
    obtain ⟨k3, -, k4⟩ := hm.1 ⟨h2, k2⟩
    exact ⟨by rintro (h | h | h) <;> [exact k1 h; exact k3 h; exact h6 h], k2, k4, ⟨a1, b1⟩, ⟨a2, b2⟩, h5⟩
  · rintro ⟨g, k2, k4, ⟨a1, b1⟩, ⟨a2, b2⟩, h5⟩
    exact ⟨⟨hb.2 ⟨fun x => g (.inl x), k2⟩, (hm.2 ⟨fun x => g (.inr (.inl x)), k2, k4⟩).1, ⟨a1, a2⟩,
      ⟨b1, b2⟩, h5⟩, fun x => g (.inr (.inr x))⟩

/-- A timed row does its work at its instant, or its instant has not come. -/
theorem State.atInstant_cases (s : State) (n : Nat) (work : State → State) :
    (s.mayPass n = true
        ∧ s.atInstant n work = work { s with timebase := s.timebase.advance n })
      ∨ (s.mayPass n = false ∧ s.atInstant n work = s) := by
  unfold State.atInstant
  cases s.mayPass n <;> simp

/-! ### The arbiter -/

/-- The arbiter changes the engine alone, and leaves it idle only where nothing waits (R88). -/
theorem State.handOver_cases (s : State) :
    (∃ q rest, s.predictor.engine = .idle ∧ s.predictor.queue = q :: rest
        ∧ s.handOver = s.beginEvaluation .scheduler q.chain q.arrival q.t0 q.d q.h)
      ∨ (∃ p, s.predictor.engine = .idle ∧ s.predictor.queue = [] ∧ s.predictor.preview = some p
        ∧ s.handOver = s.beginEvaluation .preview p.chain p.arrival p.t0 p.d p.h)
      ∨ (s.predictor.engine = .idle ∧ s.predictor.queue = [] ∧ s.predictor.preview = none
        ∧ s.handOver = s)
      ∨ (s.predictor.engine ≠ .idle ∧ s.handOver = s) := by
  unfold State.handOver
  cases he : s.predictor.engine with
  | evaluating client n f => exact .inr (.inr (.inr ⟨by simp, rfl⟩))
  | idle =>
    cases hq : s.predictor.queue with
    | cons q rest => exact .inl ⟨q, rest, rfl, rfl, rfl⟩
    | nil =>
      cases hp : s.predictor.preview with
      | some p => exact .inr (.inl ⟨p, rfl, rfl, rfl, rfl⟩)
      | none => exact .inr (.inr (.inl ⟨rfl, rfl, rfl, rfl⟩))

/-- The arbiter changes nothing but the engine. -/
theorem State.handOver_frame (s : State) : s.handOver =
    { s with predictor := { s.predictor with engine := s.handOver.predictor.engine } } := by
  rcases s.handOver_cases with ⟨q, r, _, _, h⟩ | ⟨p, _, _, _, h⟩ | ⟨_, _, _, h⟩ | ⟨_, h⟩ <;>
    rw [h] <;> rfl

end Sys2Proof.Machine
end

