-- ==== Sys2Proof/Laws/Choices.lean ====
section
/-! SUPPORT. What the choices among several can give: the first of the best, the lowest FREE slot, the record a
handle resolves to; and what the acts that span a block leave unchanged. -/

namespace Sys2Proof.Machine

/-! ### The first of the best

A strict weak order: `better` never holds both ways, and is carried over by what is not worse. -/

theorem firstBest_fold_split {α : Type} {better : α → α → Bool}
    (asymm : ∀ a b, better a b = true → better b a = false)
    (carry : ∀ a b c, better a b = false → better b c = false → better a c = false)
    (xs : List α) (x z : α)
    (h : xs.foldl (fun best y => if better y best then y else best) x = z) :
    (z = x ∧ ∀ y ∈ xs, better y x = false)
      ∨ ∃ l r, xs = l ++ z :: r ∧ better z x = true ∧ (∀ y ∈ l, better z y = true)
          ∧ ∀ y ∈ r, better y z = false := by
  induction xs generalizing x with
  | nil => exact .inl ⟨h.symm, by simp⟩
  | cons y ys ih =>
    simp only [List.foldl_cons] at h
    by_cases hy : better y x = true
    · rw [if_pos hy] at h
      rcases ih y h with ⟨rfl, hr⟩ | ⟨l, r, rfl, hz, hl, hr⟩
      · exact .inr ⟨[], ys, rfl, hy, by simp, hr⟩
      · refine .inr ⟨y :: l, r, rfl, ?_, ?_, hr⟩
        · by_contra hc
          exact absurd (carry z x y (by simpa using hc) (asymm y x hy)) (by simp [hz])
        · simpa [hz] using hl
    · have hy' : better y x = false := by simpa using hy
      rw [if_neg hy] at h
      rcases ih x h with ⟨rfl, hr⟩ | ⟨l, r, rfl, hz, hl, hr⟩
      · exact .inl ⟨rfl, by simpa [hy'] using hr⟩
      · refine .inr ⟨y :: l, r, rfl, hz, ?_, hr⟩
        have : better z y = true := by
          by_contra hc
          exact absurd (carry z y x (by simpa using hc) hy') (by simp [hz])
        simpa [this] using hl

/-- The first of the best is better than all before it, and none after it is better. -/
theorem firstBest_split {α : Type} {better : α → α → Bool}
    (asymm : ∀ a b, better a b = true → better b a = false)
    (carry : ∀ a b c, better a b = false → better b c = false → better a c = false)
    {l : List α} {z : α} (h : firstBest better l = some z) :
    ∃ before after, l = before ++ z :: after ∧ (∀ y ∈ before, better z y = true)
      ∧ ∀ y ∈ after, better y z = false := by
  cases l with
  | nil => simp [firstBest] at h
  | cons x xs =>
    simp only [firstBest, Option.some.injEq] at h
    rcases firstBest_fold_split asymm carry xs x z h with ⟨rfl, hr⟩ | ⟨l, r, rfl, hz, hl, hr⟩
    · exact ⟨[], xs, rfl, by simp, hr⟩
    · exact ⟨x :: l, r, rfl, by simpa [hz] using hl, hr⟩

/-- The case that the manual uses most: by a figure, the least first. -/
theorem firstBest_least {α : Type} (f : α → Nat) {l : List α} {z : α}
    (h : firstBest (fun a b => decide (f a < f b)) l = some z) :
    ∃ before after, l = before ++ z :: after ∧ (∀ y ∈ before, f z < f y) ∧ ∀ y ∈ after, f z ≤ f y := by
  obtain ⟨p, q, rfl, hp, hq⟩ := firstBest_split
    (fun a b h => by simp only [decide_eq_true_eq, decide_eq_false_iff_not] at *; omega)
    (fun a b c h h' => by simp only [decide_eq_false_iff_not] at *; omega) h
  exact ⟨p, q, rfl, by simpa using hp, by simpa using hq⟩

/-- By a figure, the greatest first. -/
theorem firstBest_greatest {α : Type} (f : α → Nat) {l : List α} {z : α}
    (h : firstBest (fun a b => decide (f b < f a)) l = some z) :
    ∃ before after, l = before ++ z :: after ∧ (∀ y ∈ before, f y < f z) ∧ ∀ y ∈ after, f y ≤ f z := by
  obtain ⟨p, q, rfl, hp, hq⟩ := firstBest_split
    (fun a b h => by simp only [decide_eq_true_eq, decide_eq_false_iff_not] at *; omega)
    (fun a b c h h' => by simp only [decide_eq_false_iff_not] at *; omega) h
  exact ⟨p, q, rfl, by simpa using hp, by simpa using hq⟩

/-! ### Slots -/

/-- The lowest FREE slot is FREE, and every slot below it is occupied (R12). -/
theorem Table.lowestFree_spec {t : Table} {i : Nat} (h : t.lowestFree = some i) : t.LowestFree i := by
  rw [Table.lowestFree, List.findIdx?_eq_some_iff_getElem] at h
  obtain ⟨hi, hn, hb⟩ := h
  refine ⟨hi, ?_, fun j hj => ?_⟩
  · simpa [Table.record, Table.slot, List.getD, hi] using hn
  · have hj' : j < t.slots.length := lt_trans hj hi
    have := hb j hj
    simp only [Table.record, Table.slot, List.getD, List.getElem?_eq_getElem hj', Option.getD_some]
    cases hr : t.slots[j].record <;> simp_all

/-- A handle resolves to a live record of the slot it names, the generations agreeing (R2). -/
theorem Table.resolve_record {t : Table} {v i : Nat} {r : Record} (h : t.resolve v = .record i r) :
    v < 1024 ∧ i = v / 16 ∧ (t.slot i).gen = BitVec.ofNat 4 (v % 16) ∧ t.record i = some r
      ∧ r.state ≠ .retired := by
  unfold Table.resolve at h
  split at h
  · cases h
  · split at h
    · cases h
    · simp only at h
      split at h
      · cases h
      · next hg =>
        split at h
        · cases h
        · next q hq =>
          split at h
          · cases h
          · next hs =>
            cases h
            exact ⟨by omega, rfl, not_not.1 hg, hq, hs⟩

/-- The two acts of taking a written byte: handled in the phase it is for, or nothing. -/
theorem State.written_cases (s : State) (ph : Phase) (f : State → State) :
    (s.link.transaction = .write ∧ s.link.phase = ph ∧ s.written ph f = f s.shiftStatus)
      ∨ (¬ (s.link.transaction = .write ∧ s.link.phase = ph) ∧ s.written ph f = s) := by
  unfold State.written
  split
  · next h => exact .inl ⟨h.1, h.2, rfl⟩
  · next h => exact .inr ⟨h, rfl⟩

/-! ### The statements' words, as the model computes them -/

/-- The lower edge of a forbidden interval (R95). -/
theorem SnapOven.lowerEdge_eq (o : SnapOven) (t0 : Time) (g : Nat) (k : Int) :
    o.lowerEdge t0 g k = o.lower t0 g k := by
  have h := Rat.floor_intCast_div_natCast ((o.a16 - to16 t0).toInt + k * o.p16) 16
  simp only [Nat.cast_ofNat] at h
  rw [SnapOven.lowerEdge, h]; rfl

/-- The upper edge of a forbidden interval (R95). -/
theorem SnapOven.upperEdge_eq (o : SnapOven) (t0 : Time) (g : Nat) (k : Int) :
    o.upperEdge t0 g k = o.upper t0 g k := by
  have h := Rat.ceil_intCast_div_natCast ((o.a16 - to16 t0).toInt + k * o.p16) 16
  simp only [Nat.cast_ofNat] at h
  rw [SnapOven.upperEdge, h]; rfl

/-- The grade of a load (R100). -/
theorem gradeOf_eq (load : Nat) : gradeOf load = riskGrade load := rfl

/-- The tolerance of R53. -/
theorem State.tolerance_eq (s : State) (r : Record) (o : OvenPart) :
    s.tolerance r o = wEff o.w r.state s.timebase.clock := rfl

/-- The on-interval of R42. -/
theorem State.absorbs_iff (s : State) (rep : Report) (r : Record) (o : OvenPart) :
    s.Absorbs rep r o ↔ o.absorbs (to16 rep.start) (wEff o.w r.state s.timebase.clock) = true := by
  rw [State.Absorbs, s.tolerance_eq, Int.fdiv_eq_ediv_of_nonneg _ (Int.natCast_nonneg _)]
  simp [OvenPart.absorbs, diff16]

/-- Time that passes over no instant passes as the statements say (R147). -/
theorem State.advance_eq_later {s : State} {n : Nat} (h : s.timebase.epochTimer < 100000)
    (r : s.Reaches n) : s.timebase.advance n = s.timebase.later n := by
  obtain ⟨-, h2, h3, -⟩ := r
  have e1 : 100000 ≤ s.timebase.epochTimer + n ↔ s.timebase.epochTimer + n = 100000 := by omega
  have e2 : ¬ 100000 + 50000 ≤ s.timebase.epochTimer + n := by omega
  have e3 : s.timebase.epochTimer < 50000 ∧ 50000 ≤ s.timebase.epochTimer + n ↔
      s.timebase.epochTimer < 50000 ∧ s.timebase.epochTimer + n = 50000 := by omega
  unfold Timebase.advance Timebase.later epochLength midEpochAt
  simp only [e2, decide_false, Bool.or_false, ← Bool.decide_and, e1, e3]

/-- A timed row at an instant that is reached does its work there (R147). -/
theorem State.atInstant_reached {s : State} {n : Nat} (work : State → State)
    (h : s.timebase.epochTimer < 100000) (r : s.Reaches n) :
    s.atInstant n work = work { s with timebase := s.timebase.later n } := by
  rw [State.atInstant, if_pos ((State.mayPass_iff h).2 r), State.advance_eq_later h r]

/-- A timed row whose instant is not reached leaves the state (notes/assumptions/7.md). -/
theorem State.atInstant_not_reached {s : State} {n : Nat} (work : State → State)
    (h : s.timebase.epochTimer < 100000) (r : ¬ s.Reaches n) : s.atInstant n work = s := by
  rw [State.atInstant, if_neg (fun m => r ((State.mayPass_iff h).1 m))]

/-- The microseconds to a time (R146). -/
theorem State.remaining_eq_ahead (s : State) (e : Time) : s.timebase.remaining e = s.ahead e := by
  simp only [Timebase.remaining, State.ahead, interval, State.now]; omega

/-! ### Several notices, and the acts that span a block -/

/-- Several notices raised in turn change nothing but the notices. -/
theorem foldl_raise_frame (l : List AgingNotice) (s : State) :
    l.foldl (fun acc n => acc.raise n.kind (.handle n.slot n.gen) .none) s =
      { s with notices :=
        (l.foldl (fun acc n => acc.raise n.kind (.handle n.slot n.gen) .none) s).notices } := by
  induction l generalizing s with
  | nil => rfl
  | cons n l ih =>
    simp only [List.foldl_cons]
    rw [ih]
    simp

/-- The boundary's work: the table slot by slot, the intake's turnover, the hold-offs, and notices. -/
theorem State.boundaryWork_frame (s : State) : ∃ ns : Notices, s.boundaryWork =
    { s with
      timebase := { s.timebase with boundaryDue := false }
      table := s.table.mapSlots (fun x => (Slot.atBoundary s.params s.intake.blindFlag (to16 s.now)
        { airtimeFirst := Config.airtimeFirst s.freeCount,
          rebaseFirst := Config.rebaseFirst s.freeCount } x).1)
      intake := s.intake.turnOver
      radio := { s.radio with
        chainA := s.radio.chainA.countEpoch, chainB := s.radio.chainB.countEpoch }
      notices := ns
      freeCount := s.freeCount + 1 } := by
  unfold State.boundaryWork
  simp only
  rw [foldl_raise_frame]
  exact ⟨_, rfl⟩

/-- The rebase of an oven moves its anchor, and writes the model's record of it. -/
theorem OvenPart.rebased_frame (o : OvenPart) (now16 : Time16) : ∃ (a16 : Time16) (f : Option Rebase),
    o.rebased now16 = { o with a16 := a16, former := f, stood := none } := by
  unfold OvenPart.rebased
  split
  · exact ⟨_, _, rfl⟩
  · exact ⟨_, _, rfl⟩

/-- What R66 does to an oven that a commit of P has written: it keeps the old P16 for the rebase to come, or moves the
anchor that the rebase left, or does nothing. -/
theorem OvenPart.meetsRebase_cases (o new : OvenPart) (b : Timebase) :
    (b.boundaryDue = true ∧ o.meetsRebase new b = { new with stood := some (o.stood.getD o.p16) })
      ∨ (∃ x a16, b.boundaryDue = false ∧ b.epochTimer = 0 ∧ o.phaseKnown = true ∧ o.former = some x
          ∧ o.a16 = x.after ∧ a16 = rebasedAnchor x.before new.p16 (to16 b.time)
          ∧ o.meetsRebase new b = { new with a16 := a16, former := some { x with after := a16 } })
      ∨ o.meetsRebase new b = new := by
  unfold OvenPart.meetsRebase
  split
  · next h => exact .inl ⟨h, rfl⟩
  · next h =>
    split
    · next x hx =>
      split
      · next hc => exact .inr (.inl ⟨x, _, by simpa using h, hc.1, hc.2.1, hx, hc.2.2, rfl, rfl⟩)
      · exact .inr (.inr rfl)
    · exact .inr (.inr rfl)

/-- The outcomes of R66 touch the oven part of the committed record alone. -/
theorem State.meetsRebase_frame (s : State) (r : Record) (g : Staged) (q : Record) :
    s.meetsRebase r g q = q
      ∨ ∃ o new, r.part = .oven o ∧ q.part = .oven new ∧ o.periodKnown = true ∧ g.p.isSome = true
          ∧ s.meetsRebase r g q = { q with part := .oven (o.meetsRebase new s.timebase) } := by
  unfold State.meetsRebase
  split
  · next o new ho hn =>
    split
    · next h =>
      simp only [Bool.and_eq_true] at h
      exact .inr ⟨o, new, ho, hn, h.2, h.1, rfl⟩
    · exact .inl rfl
  · exact .inl rfl

/-- The act of one evaluation: the chain's advice fields, a move handed over, and a notice (R139, R140). -/
theorem State.actOn_cases (s : State) (c : Chain) (v : Evaluation) :
    (v.advised = none ∧ s.actOn c v = s.setChain c { s.chain c with streak := v.streak })
      ∨ ∃ best, v.advised = some best ∧ s.actOn c v =
          { s with
            radio := s.radio.setChain c
              { s.chain c with
                streak := v.streak, lastAdvised := some best
                handed := if v.moves then some best else (s.chain c).handed }
            notices := (s.raise .advice (.chain c) (.advice best)).notices } := by
  unfold State.actOn
  split
  · next h => exact .inl ⟨h, rfl⟩
  · next best h =>
    refine .inr ⟨best, h, ?_⟩
    rw [State.raise_frame]
    rfl

end Sys2Proof.Machine
end

