-- ==== Sys2Proof/WellFormed.lean ====
section
/-! DEFINITION. Which terms of `Instr` are commands of the table: a frame that is taken has reached its
last needed byte, a frame that is discarded has not (R209, R210). Every byte and every chain is
well-formed: a code that a request does not know is answered INVALID by the request's meaning. -/

namespace Sys2Proof

/-- A burst report is a frame of ten bytes; later bytes of the frame are ignored (R209). -/
def reportFrameBytes : Nat := 10

/-- A window query is a frame of eight bytes; later bytes of the frame are ignored (R210). -/
def queryFrameBytes : Nat := 8

/-- The checks on a command's operands. -/
def Instr.wellFormed : Instr → Bool
  | .reportArrival frame => decide (reportFrameBytes ≤ frame.length)
  | .detectorFrameDiscarded bytes => decide (bytes.length < reportFrameBytes)
  | .queryArrival frame => decide (queryFrameBytes ≤ frame.length)
  | .schedulerFrameDiscarded bytes => decide (bytes.length < queryFrameBytes)
  | .powerOnReset | .detectorReadyDeasserted | .detectorReadyAsserted | .takeReport | .epochBoundary
  | .midEpoch | .automaticMove _ | .evaluationStart | .delivery | .answerFrameSent | .selectAsserted
  | .statusExchange _ | .selectDeasserted | .requestCode _ | .parameterByte _ | .ignoredByte _
  | .abort _ | .abandon _ | .readResultByte | .readStatus | .reset | .setDomain | .setParameter
  | .setNoticeLevel | .setTuneCode | .setAuto | .restoreClock | .move | .step | .setChannel
  | .abortMove | .lockAsserted _ | .lockDeasserted _ | .lockTimerExpiry _ | .dwellTimerExpiry _
  | .pin | .setOrigin | .retire | .openRecord | .readRecord | .editField | .closeRecord | .nextRecord
  | .sweep | .sweepExamination | .preview | .readCosts | .fetchNotice | .referenceLoss
  | .referenceReturn | .qualificationExpiry => true

end Sys2Proof
end

