-- ==== Sys2Proof/Tests/Slice0.lean ====
section
/-! SUPPORT. The model's own tests: ill-formed commands, the worked figures of the manual one step at a time,
and, for each statement with hypotheses, states and operands that meet them. Expected values are the manual's;
each test names their place. -/

namespace Sys2Proof.Tests

open Sys2Proof Sys2Proof.Machine

/-! ### Helpers -/

/-- The state after a command. -/
def ran (c : Instr) (s : State) : State :=
  match exec c s with
  | .next t => t
  | .fault _ | .refused _ => State.reset

/-- The link in EXECUTION of a request. -/
def asks (code : Byte) (params : List Byte) (s : State := State.reset) : State :=
  { s with link := { Link.reset with phase := .execution, code := some code, expected := params.length,
                                     params := params } }

/-- A table of `n` slots holding some records. -/
def holding (n : Nat) (l : List (Nat × BitVec 4 × Record)) : Table :=
  l.foldl (fun t x => t.replace x.1 ⟨x.2.1, some x.2.2⟩)
    { Table.reset with slots := List.replicate n Slot.reset,
                       counts := { Table.reset.counts with free := n }, seqCounter := 60 }

def onTable (t : Table) (s : State := State.reset) : State := { s with table := t }

/-- The oven of slot 2 of the worked sequence (2.8, 3.10). -/
def oven2 : Record :=
  { part := .oven { periodKnown := true, p16 := 320000, phaseKnown := true, a16 := 16000000,
                    d := 10000, w := 1500 },
    state := .tracked, origin := .learned, held := false, span := ⟨45, 70⟩, hits := 40, idle := 0,
    emptyStreak := 0, hitFlag := false, age := 0, seq := 12 }

/-- The oven part of slot 2 after the first report (2.8, 3.10). -/
def ovenHit2 : OvenPart :=
  { periodKnown := true, p16 := 320080, phaseKnown := true, a16 := 16960480, d := 9975, w := 1500 }

def heard2 : Record := { oven2 with part := .oven ovenHit2, span := ⟨45, 71⟩ }

/-- The oven candidate of the acquisition cases (3.10). -/
def candidate0 : Record :=
  { oven2 with
    part := .oven { periodKnown := false, p16 := 0, phaseKnown := true, a16 := 8000000, d := 8200,
                    w := 1500 },
    state := .candidate, hits := 1, hitFlag := true }

/-- A pinned oven of unknown phase (3.10). -/
def pinned3 : Record :=
  { oven2 with
    part := .oven { periodKnown := true, p16 := 266672, phaseKnown := false, a16 := 0, d := 8333,
                    w := 1500 },
    origin := .pinned, hits := 0 }

/-- A NEIGHBOUR on channel 9 (4.8). -/
def neighbour4 : Record :=
  { oven2 with part := .neighbour 0x0102 9 { share := 72, acc := 0, level := -60 }, span := ⟨42, 62⟩ }

/-- A STEADY record (4.8). -/
def steady7 : Record :=
  { oven2 with part := .steady { share := 40, acc := 0, level := -70 }, span := ⟨55, 75⟩,
               state := .coasting }

/-- A swept report (2.8). -/
def swept (start : Time) (duration centre : Nat) (span : Span) : Report :=
  { start := start, duration := duration, centre := centre, span := span, level := -50,
    signature := .swept }

def queued (rep : Report) (s : State) : State :=
  { s with intake := { s.intake with queue := [rep] } }

def inReference (s : State) : State :=
  { s with timebase := { s.timebase with clock := .reference, refPresent := true, qual := .qualified } }

/-- A chain in a state of R109, on channel `p`, with a move to `t`. -/
def chainIn (st : ChainState) (p t : Option Nat) : ChainRec :=
  { ChainRec.reset with
    state := st, present := p, target := t,
    lockTimer := if st = .retuning then some 2000 else none,
    dwellTimer := if st = .dwell then some 20000 else none }

/-- Both chains, with a code for each channel of domain A. -/
def radios (a b : ChainRec) (s : State := State.reset) : State :=
  { s with radio := { chainA := a, chainB := b, domain := .A, domainLock := true,
                      tuneMap := List.replicate 11 7 ++ [0, 0, 0] } }

def readyOn (n : Nat) : ChainRec := chainIn .ready (some n) none

/-- The counter and the epoch timer at a time within the first epoch. -/
def atTime (n : Nat) (s : State) : State :=
  { s with timebase := { s.timebase with time := BitVec.ofNat 32 n, epochTimer := n } }

/-- What the gate of the timed rows lets pass is reached (R147). -/
theorem reaches_of {s : State} {n : Nat} (h : s.timebase.epochTimer < 100000)
    (m : s.mayPass n = true) : s.Reaches n := (State.mayPass_iff h).1 m

theorem not_reaches_of {s : State} {n : Nat} (h : s.timebase.epochTimer < 100000)
    (m : s.mayPass n = false) : ¬ s.Reaches n := fun r => by
  rw [(State.mayPass_iff h).2 r] at m; exact absurd m (by decide)

/-! ### Ill-formed commands are refused (R209, R210) -/

theorem test_short_report_ill_formed :
    (Instr.reportArrival (List.replicate 9 0)).wellFormed = false := by decide

theorem test_long_discarded_report_ill_formed :
    (Instr.detectorFrameDiscarded (List.replicate 10 0)).wellFormed = false := by decide

theorem test_short_query_ill_formed :
    (Instr.queryArrival (List.replicate 7 0)).wellFormed = false := by decide

theorem test_long_discarded_query_ill_formed :
    (Instr.schedulerFrameDiscarded (List.replicate 8 0)).wellFormed = false := by decide

theorem test_frames_well_formed :
    (Instr.reportArrival (List.replicate 10 0)).wellFormed = true
      ∧ (Instr.detectorFrameDiscarded (List.replicate 9 0)).wellFormed = true
      ∧ (Instr.queryArrival (List.replicate 8 0)).wellFormed = true
      ∧ (Instr.schedulerFrameDiscarded (List.replicate 7 0)).wellFormed = true := by decide

/-! ### The queue of commands -/

theorem test_StepRunsFrontCommand :
    ∃ t, step { State.reset with pending := [.referenceReturn, .takeReport] } = .next t
      ∧ t.pending = [.takeReport] ∧ t.timebase.refPresent = true := ⟨_, rfl, rfl, rfl⟩

/-- No row of the table gives bits, so no word spells a command. -/
theorem test_no_word_spells : State.withFetchWord State.reset 8 0x40 = State.reset := by decide

/-! ### Resets -/

theorem test_PowerOnResetValues :
    (ran .powerOnReset (inReference (onTable (holding 3 [(2, 5, oven2)])))).table.slots.length = 64
      ∧ (ran .powerOnReset { State.reset with link := { Link.reset with transaction := .read } }
          ).link.transaction = .status := by decide

/-- R28: an occupied slot is freed with its generation incremented, a FREE slot keeps its own. -/
theorem test_SoftResetValues :
    let s := asks 0x02 [] (onTable (holding 3 [(2, 15, oven2)]))
    s.Executing 0x02 [] ∧ (ran .reset s).table.slot 2 = ⟨0, none⟩
      ∧ (ran .reset s).table.slot 1 = ⟨0, none⟩ ∧ (ran .reset s).link.result = [0x00] := by decide

/-! ### Burst intake -/

/-- Report 1 of 2.8: arrival 1,060,300, age 180, centre 58 and width 25 give start 1,060,120 and 45..71. -/
def frame1 : List Byte := [0x02, 0x00, 0xB4, 0x26, 0x48, 58, 25, 0xCE, 0, 0]

theorem test_ReportArrivalQueuesOrOverflows_queues :
    let s := { State.reset with timebase := { Timebase.reset with time := 1060300 } }
    (ran (.reportArrival frame1) s).intake.queue = [swept 1060120 9800 58 ⟨45, 71⟩] := by decide

theorem test_ReportArrivalQueuesOrOverflows_overflows :
    let s := { State.reset with intake :=
      { Intake.reset with queue := List.replicate 32 (swept 0 1 0 ⟨0, 1⟩) } }
    32 ≤ s.intake.queue.length ∧ (ran (.reportArrival frame1) s).intake.blindThrough = .next
      ∧ (ran (.reportArrival frame1) s).notices.entries.map Entry.key = [(.intakeOverflow, .none)]
      ∧ (ran (.reportArrival frame1) s).intake.queue.length = 32 := by decide

/-- R31 at the edges of the band, R32 by duration and by signature. -/
theorem test_PortLinesAndDiscards :
    reportSpan 5 25 = ⟨0, 18⟩ ∧ reportSpan 100 40 = ⟨80, 100⟩
      ∧ ran (.reportArrival [0x02, 0, 0, 0, 0, 58, 25, 0, 0, 0]) State.reset = State.reset
      ∧ ran (.reportArrival [0x04, 0, 0, 1, 0, 58, 25, 0, 0, 0]) State.reset = State.reset
      ∧ (ran .detectorReadyAsserted (ran .detectorReadyDeasserted State.reset)).intake.notReadySeen
          = true
      ∧ ran (.lockDeasserted .A) State.reset = State.reset
      ∧ ran (.lockAsserted .A) (ran (.lockAsserted .A) State.reset) = ran (.lockAsserted .A) State.reset := by
  decide

/-! ### The association engine -/

/-- A PREAMBLE report on centre 52, channel 9, moves the level a quarter of the way (R73). -/
theorem test_NetworkReportUpdatesItsRecord_preamble :
    let rep := { swept 100 1200 52 ⟨42, 62⟩ with signature := .preamble 0x0102 }
    let s := queued rep (onTable (holding 5 [(4, 0, neighbour4)]))
    s.Takes rep [] ∧ (4, neighbour4) ∈ s.table.records
      ∧ neighbour4.part.airtime? = some { share := 72, acc := 0, level := -60 }
      ∧ neighbour4.Named 0x0102 (derivedChannel rep.centre)
      ∧ (∀ y ∈ s.table.records, y.2.Named 0x0102 (derivedChannel rep.centre) → 4 ≤ y.1)
      ∧ ((ran .takeReport s).table.record 4).map (·.part) =
          some (.neighbour 0x0102 9 { share := 72, acc := 1200, level := -57 }) := by decide

/-- R47: a centre of 37, of 84 and of 3; and the ties at 34.5 and below. -/
theorem test_NetworkReportUpdatesItsRecord_channel :
    [37, 84, 3, 0, 100, 9, 10, 14].map derivedChannel = [6, 14, 1, 1, 14, 1, 1, 1]
      ∧ [15, 17, 19, 20].map derivedChannel = [2, 2, 2, 3] := by decide

theorem test_NetworkReportUpdatesItsRecord_steady :
    let rep := { swept 100 1200 52 ⟨40, 60⟩ with signature := .steady }
    let s := queued rep (onTable (holding 5 [(4, 0, steady7)]))
    s.Takes rep [] ∧ (4, steady7) ∈ s.table.records ∧ steady7.SteadyOver rep
      ∧ (∀ y ∈ s.table.records, y.2.SteadyOver rep →
          y.2.span.overlapWidth rep.span < steady7.span.overlapWidth rep.span
            ∨ (y.2.span.overlapWidth rep.span = steady7.span.overlapWidth rep.span ∧ 4 ≤ y.1))
      ∧ ((ran .takeReport s).table.record 4).map (·.span) = some ⟨40, 75⟩ := by decide

/-- Report 1 of 2.8 against slot 2: k = 3, e16 = 1,920. -/
theorem test_SweptReportUpdatesNearestOven :
    let rep := swept 1060120 9800 58 ⟨45, 71⟩
    let s := inReference (queued rep (onTable (holding 3 [(2, 5, oven2)])))
    s.Takes rep [] ∧ (∀ o ∈ oven2.oven?, oven2.Rhythmic o rep ∧ s.Passes rep oven2 o
        ∧ (o.phaseMatch (to16 rep.start)).k = 3 ∧ (o.phaseMatch (to16 rep.start)).e16 = 1920)
      ∧ (2, oven2) ∈ s.table.records
      ∧ (∀ y ∈ s.table.records, ∀ p ∈ y.2.oven?, y.2.Rhythmic p rep → s.Passes rep y.2 p → 2 ≤ y.1)
      ∧ (ran .takeReport s).table.record 2 = some { heard2 with hits := 41, hitFlag := true } := by
  decide

/-- Report 2 of 2.8 is absorbed, and report 3 is not and creates a candidate in slot 0. -/
theorem test_SweptReportIsAbsorbedOrAcquires_absorbed :
    let rep := swept 1065000 3000 57 ⟨47, 67⟩
    let s := inReference (queued rep (onTable (holding 3 [(2, 5, heard2)])))
    s.Takes rep [] ∧ s.Unmatched rep ∧ heard2.Rhythmic ovenHit2 rep ∧ s.Absorbs rep heard2 ovenHit2
      ∧ (2, heard2) ∈ s.table.records ∧ (ran .takeReport s).table = s.table := by decide

/-- 3.10: the pinned oven takes its phase from the first report. -/
theorem test_SweptReportIsAbsorbedOrAcquires_phase :
    let rep := swept 2000000 8200 58 ⟨45, 71⟩
    let s := queued rep (onTable (holding 4 [(3, 1, pinned3)]))
    s.Takes rep [] ∧ s.Unsettled rep ∧ (∀ o ∈ pinned3.oven?, pinned3.Phaseless o rep)
      ∧ (∀ y ∈ s.table.records, ∀ p ∈ y.2.oven?, y.2.Phaseless p rep → 3 ≤ y.1)
      ∧ (ran .takeReport s).table.record 3 = some { pinned3 with
          hits := 1, hitFlag := true,
          part := .oven { periodKnown := true, p16 := 266672, phaseKnown := true, a16 := 32000000,
                          d := 8333, w := 1500 } } := by decide

/-- 3.10, period acquisition: the candidate after one report. -/
def acquired (start : Time) : Option (Nat × Part) :=
  ((ran .takeReport (queued (swept start 8000 58 ⟨45, 71⟩) (onTable (holding 1 [(0, 0, candidate0)])))
    ).table.record 0).map (fun r => (r.hits, r.part))

def acquiredPart (p16 : Nat) (a16 : Time16) : Part :=
  .oven { periodKnown := decide (p16 ≠ 0), p16 := p16, phaseKnown := true, a16 := a16, d := 8200,
          w := 1500 }

theorem test_SweptReportIsAbsorbedOrAcquires_period :
    acquired 510000 = some (1, acquiredPart 0 8000000)
      ∧ acquired 518000 = some (2, acquiredPart 288000 8288000)
      ∧ acquired 525000 = some (1, acquiredPart 0 8400000)
      ∧ acquired 540010 = some (2, acquiredPart 320080 8640160)
      ∧ acquired 545000 = some (1, acquiredPart 0 8720000)
      ∧ acquired 550000 = some (2, acquiredPart 266667 8800000)
      ∧ acquired 580000 = some (1, acquiredPart 0 9280000) := by decide

theorem test_SweptReportIsAbsorbedOrAcquires_periodless :
    let rep := swept 516000 8000 58 ⟨45, 71⟩
    let s := queued rep (onTable (holding 1 [(0, 0, candidate0)]))
    s.Unacquired rep ∧ (∀ o ∈ candidate0.oven?, candidate0.Periodless o rep
        ∧ (to16 rep.start - o.a16).toInt = 16 * 16000)
      ∧ (∀ y ∈ s.table.records, ∀ p ∈ y.2.oven?, y.2.Periodless p rep → 0 ≤ y.1
          ∧ s.table.seniority y.2 = s.table.seniority candidate0)
      ∧ acquired 516000 = some (2, acquiredPart 256000 8256000) := by decide

/-- Report 3 of 2.8. -/
theorem test_UnsettledReportCreates_swept :
    let rep := swept 1075000 8200 60 ⟨45, 75⟩
    let s := inReference (queued rep (onTable (holding 3 [(2, 5, heard2)])))
    s.Takes rep [] ∧ s.Unacquired rep
      ∧ (∀ y ∈ s.table.records, ∀ p ∈ y.2.oven?, ¬ y.2.Periodless p rep)
      ∧ ((ran .takeReport s).table.record 0).map (·.part) = some (.oven
          { periodKnown := false, p16 := 0, phaseKnown := true, a16 := 17200000, d := 8200, w := 1500 })
      ∧ ((ran .takeReport s).table.record 0).map (·.seq) = some 60 := by decide

theorem test_UnsettledReportCreates_network :
    let p := { swept 100 1200 84 ⟨74, 94⟩ with signature := .preamble 7 }
    let q := { swept 100 1200 84 ⟨74, 94⟩ with signature := .steady }
    let s := onTable (holding 5 [(4, 0, neighbour4)])
    (∀ y ∈ s.table.records, ¬ y.2.Named 7 (derivedChannel p.centre) ∧ ¬ y.2.SteadyOver q)
      ∧ derivedChannel p.centre = 14
      ∧ ((ran .takeReport (queued p s)).table.record 0).map (·.part) =
          some (.neighbour 7 14 { share := 0, acc := 1200, level := -50 })
      ∧ ((ran .takeReport (queued q s)).table.record 0).map (·.part) =
          some (.steady { share := 0, acc := 1200, level := -50 }) := by decide

/-- 1.10: a full table; the held candidate is passed over and the oldest unheld one is evicted. -/
def crowded : Table :=
  holding 4 [(0, 3, { candidate0 with seq := 40 }), (1, 9, { candidate0 with seq := 38, held := true }),
    (2, 0, { candidate0 with seq := 52 }), (3, 0, oven2)]

theorem test_CreationTakesASlot_evicts :
    (∀ x ∈ crowded.slots, x.record.isSome = true)
      ∧ crowded.OldestCandidate 0 { candidate0 with seq := 40 } ∧ 1 ≤ crowded.counts.candidate
      ∧ ((State.create (onTable crowded) ⟨45, 75⟩ candidate0.part).table.slot 0).gen = 4
      ∧ candidate0.origin = .learned
      ∧ (State.create (onTable crowded) ⟨45, 75⟩ candidate0.part).table.pinned = crowded.pinned
      ∧ (State.create (onTable crowded) ⟨45, 75⟩ candidate0.part).table.seqCounter = 61 := by decide

theorem test_CreationTakesASlot_free_and_full :
    let t := holding 2 [(0, 0, oven2)]
    let u := holding 1 [(0, 0, { candidate0 with held := true })]
    t.LowestFree 1
      ∧ ((State.create (onTable t) ⟨45, 75⟩ candidate0.part).table.record 1).map (·.hits) = some 1
      ∧ (∀ x ∈ u.slots, x.record.isSome = true)
      ∧ (∀ y ∈ u.records, y.2.state = .candidate → y.2.held = true)
      ∧ (State.create (onTable u) ⟨45, 75⟩ candidate0.part).notices.entries.map Entry.key =
          [(.tableFull, .none)] := by decide

/-- 3.10, rounding at a glance: ties of the phase match go to the smaller integer. -/
theorem test_PhaseMatchNamesNearestStart :
    let o : OvenPart := { ovenHit2 with p16 := 256000, a16 := 0 }
    (o.phaseMatch 640000).k = 2 ∧ (o.phaseMatch (0 - 128000)).k = -1
      ∧ (o.phaseMatch (0 - 384000)).k = -2 ∧ (o.phaseMatch 127000).k = 0
      ∧ (o.phaseMatch 640000).e16 = 128000 := by decide

/-- 3.10: truncated and rounded quotients. -/
theorem test_rounding_at_a_glance :
    truncDiv (-1922) 4 = -480 ∧ truncDiv (-7) 4 = -1 ∧ truncDiv (-7) 8 = 0
      ∧ roundDiv (-4) 8 = 0 ∧ roundDiv 4 8 = 1 ∧ roundDiv (-12) 8 = -1 ∧ roundDiv 12 8 = 2 := by decide

/-- The table of R46. -/
theorem test_SpanUnionKeepsTheExtendedEdge :
    (⟨45, 70⟩ : Span).Lawful ∧ (⟨60, 90⟩ : Span).Lawful
      ∧ Span.unionWith ⟨45, 70⟩ ⟨45, 75⟩ = ⟨45, 75⟩ ∧ Span.unionWith ⟨45, 70⟩ ⟨60, 90⟩ = ⟨50, 90⟩
      ∧ Span.unionWith ⟨45, 70⟩ ⟨20, 50⟩ = ⟨20, 60⟩ ∧ Span.unionWith ⟨45, 70⟩ ⟨50, 60⟩ = ⟨45, 70⟩ := by
  decide

theorem test_ConfirmationFollowsTheKind :
    let r := { neighbour4 with state := .candidate, hits := 2 }
    let s := onTable (holding 5 [(4, 6, r)])
    s.table.record 4 = some r ∧ s.params.neighbourConfirm ≤ r.hits
      ∧ ((s.confirm 4).table.record 4).map (·.state) = some .tracked
      ∧ (s.confirm 4).notices.entries.map Entry.key = [(.neighbourConfirmed, .handle 4 6)]
      ∧ (onTable (holding 5 [(4, 6, { r with hits := 1 })])).confirm 4
          = onTable (holding 5 [(4, 6, { r with hits := 1 })]) := by decide

/-! ### The epoch boundary -/

theorem test_BoundaryTurnsEveryBlockOver :
    let s := { State.reset with
      timebase := { Timebase.reset with time := 1099999, epochTimer := 99999 }
      intake := { Intake.reset with blindThrough := .next, detectorReady := false } }
    s.Reaches 1 ∧ (ran .epochBoundary s).now = 1100000
      ∧ (ran .epochBoundary s).timebase.epochTimer = 0
      ∧ (ran .epochBoundary s).intake.blindThrough = .current
      ∧ (ran .epochBoundary s).intake.notReadySeen = true :=
  ⟨reaches_of (by decide) (by decide), by decide, by decide, by decide, by decide⟩

/-- A boundary that is due takes no time; one behind a mid-epoch or an expiry has not come. -/
theorem test_BoundaryTurnsEveryBlockOver_gate :
    let due := { State.reset with timebase := { Timebase.reset with boundaryDue := true } }
    let late := atTime 99999 (radios (chainIn .dwell (some 1) none) (readyOn 2))
    due.Reaches 0 ∧ (ran .epochBoundary due).timebase = Timebase.reset
      ∧ ¬ State.reset.Reaches 100000 ∧ ran .epochBoundary State.reset = State.reset
      ∧ late.Reaches 0 ∧ ¬ late.Reaches 1 ∧ ran .epochBoundary late = late :=
  ⟨reaches_of (by decide) (by decide), by decide, not_reaches_of (by decide) (by decide), by decide,
    reaches_of (by decide) (by decide), not_reaches_of (by decide) (by decide), by decide⟩

/-- The state after a boundary. -/
def agedState (r : Record) (notReadySeen : Bool) : State :=
  ran .epochBoundary (atTime 99999 { onTable (holding 1 [(0, 3, r)]) with
    intake := { Intake.reset with notReadySeen := notReadySeen } })

/-- Slot 0 after a boundary. -/
def agedSlot (r : Record) (notReadySeen : Bool) : Slot := (agedState r notReadySeen).table.slot 0

def aged (r : Record) (notReadySeen : Bool := false) : Option (RecState × Nat × Nat × Nat) :=
  (agedSlot r notReadySeen).record.map (fun q => (q.state, q.idle, q.emptyStreak, q.age))

/-- The seven epochs of 1.10: a hit, silence, the fall to COASTING, a blind epoch, and the return. -/
theorem test_AgingOfLiveRecords_confirmed :
    aged { oven2 with hitFlag := true } = some (.tracked, 0, 0, 0)
      ∧ aged oven2 = some (.tracked, 1, 1, 0)
      ∧ aged { oven2 with idle := 1, emptyStreak := 1 } = some (.coasting, 2, 2, 0)
      ∧ aged { oven2 with state := .coasting, idle := 2, emptyStreak := 2 } true
          = some (.coasting, 2, 2, 0) := by decide

/-- The same: a blind epoch in TRACKED, the return to TRACKED, and the silence of a STEADY record. -/
theorem test_AgingOfLiveRecords_blind :
    aged { oven2 with idle := 1, emptyStreak := 1 } true = some (.tracked, 1, 1, 0)
      ∧ aged { oven2 with state := .coasting, idle := 3, emptyStreak := 3, hitFlag := true }
          = some (.tracked, 0, 0, 0)
      ∧ aged { steady7 with idle := 9, state := .tracked } = some (.coasting, 10, 0, 0) := by decide

/-- Retirement at the limit: freed while not held, RETIRED while held, passed over while pinned. -/
theorem test_AgingOfLiveRecords_retired :
    let r := { oven2 with state := .coasting, idle := 49, emptyStreak := 49 }
    agedSlot r false = ⟨4, none⟩
      ∧ aged { r with held := true } = some (.retired, 50, 50, 0)
      ∧ aged { r with origin := .pinned } = some (.coasting, 50, 50, 0)
      ∧ aged { r with idle := 48 } = some (.coasting, 49, 50, 0) := by decide

/-- R20: a retirement raises its notice with the old handle, at a blind boundary too; R21: an expiry raises none; R17: a
FREE and a RETIRED slot are passed over. -/
theorem test_AgingOfLiveRecords_notices :
    let r := { oven2 with state := .coasting, idle := 50, emptyStreak := 50 }
    agedSlot r true = ⟨4, none⟩
      ∧ (agedState r true).notices.entries.map Entry.key = [(.ovenRetired, .handle 0 3)]
      ∧ (agedState { candidate0 with age := 4 } true).notices.entries = []
      ∧ agedSlot { r with state := .retired, held := true } false
          = ⟨3, some { r with state := .retired, held := true }⟩
      ∧ (agedState r false).table.slot 1 = Slot.reset := by decide

/-- 1.10: a candidate's age counts though the epoch is blind, and the fifth boundary expires it. -/
theorem test_AgingOfLiveRecords_candidate :
    aged candidate0 = some (.candidate, 0, 0, 1)
      ∧ aged { candidate0 with hitFlag := false, age := 2 } = some (.candidate, 1, 1, 3)
      ∧ aged { candidate0 with age := 3 } true = some (.candidate, 0, 0, 4)
      ∧ agedSlot { candidate0 with age := 4 } true = ⟨4, none⟩
      ∧ agedSlot { candidate0 with age := 4 } false = ⟨4, none⟩
      ∧ aged { candidate0 with age := 4, hitFlag := false, held := true }
          = some (.retired, 1, 1, 5) := by decide

/-- 3.10, the rebase at 1,100,000; and the two orders of a report at that boundary. -/
theorem test_BoundaryClosesParts_rebase :
    (Part.oven ovenHit2).closed (to16 1100000)
        = .oven { ovenHit2 with a16 := 17280560, former := some ⟨16960480, 17280560⟩ }
      ∧ (Part.oven { ovenHit2 with a16 := 17600460 }).closed (to16 1100000)
          = .oven { ovenHit2 with a16 := 17600460, former := some ⟨17600460, 17600460⟩ }
      ∧ (Part.oven { ovenHit2 with p16 := 300000, stood := some 320080 }).closed (to16 1100000)
          = .oven { ovenHit2 with
              p16 := 300000, a16 := 17280560, former := some ⟨16960480, 17280560⟩ }
      ∧ 0 ≤ (to16 1100000 - ovenHit2.a16).toInt := by decide

/-- 4.8: the share over single steps. -/
theorem test_BoundaryClosesParts_share :
    let closed (share acc : Nat) := Airtime.closed { share := share, acc := acc, level := -60 }
    (Airtime.Lawful { share := 250, acc := 100000, level := -60 })
      ∧ (closed 64 50000).share = 72 ∧ (closed 70 50000).share = 77 ∧ (closed 5 0).share = 4
      ∧ (closed 4 0).share = 4 ∧ (closed 250 100000).share = 251 ∧ (closed 43 0).share = 38 := by decide

/-! ### The channel advisor -/

/-- The table of 4.8 and 7.8, its slots closed up. -/
def kitchen : Table :=
  holding 6 [(0, 0, { candidate0 with span := ⟨45, 75⟩ }), (1, 0, heard2), (2, 0, neighbour4),
    (3, 0, steady7),
    (4, 0, { neighbour4 with part := .neighbour 1 13 { share := 90, acc := 0, level := -85 },
                             span := ⟨62, 82⟩ }),
    (5, 0, { neighbour4 with part := .neighbour 1 2 { share := 60, acc := 0, level := -55 },
                             span := ⟨7, 27⟩ })]

/-- Chain A of 7.8 at the mid-epoch of epoch 22. -/
def advised : State :=
  radios { readyOn 9 with auto := true, streak := 2, holdOff := 100 } (readyOn 1) (onTable kitchen)

theorem test_MidEpochCostsAndAdvises :
    (ran .midEpoch advised).advisor.costs.map (·.cost)
        = [60, 60, 60, 60, 132, 255, 200, 240, 240, 240, 240, 0, 0, 0]
      ∧ (ran .midEpoch advised).radio.chainA.lastAdvised = some 4
      ∧ (ran .midEpoch advised).radio.chainA.streak = 0
      ∧ (ran .midEpoch advised).radio.chainA.handed = some 4
      ∧ (ran .midEpoch advised).radio.chainB.streak = 0
      ∧ (ran .midEpoch advised).notices.entries.map Entry.key = [(.advice, .chain .A)]
      ∧ (ran .midEpoch advised).timebase.epochTimer = 50000 := by decide

/-- The instant of mid-epoch is reached from reset, and not past an expiry or past a boundary. -/
theorem test_MidEpochCostsAndAdvises_gate :
    let late := radios (chainIn .dwell (some 1) none) (readyOn 2)
    advised.Reaches 50000 ∧ ¬ late.Reaches 50000 ∧ ran .midEpoch late = late
      ∧ ¬ (atTime 50001 State.reset).Reaches 99999
      ∧ ran .midEpoch (atTime 50001 State.reset) = atTime 50001 State.reset :=
  ⟨reaches_of (by decide) (by decide), not_reaches_of (by decide) (by decide), by decide,
    not_reaches_of (by decide) (by decide), by decide⟩

/-- With a margin of 0 both streaks complete; with both chains out of READY neither does. -/
theorem test_MidEpochCostsAndAdvises_both :
    let both := State.costed { advised with
      params := { advised.params with adviceMargin := 0 }
      radio := { advised.radio with chainB := { advised.radio.chainB with streak := 15 } } }
    (both.evaluateChain .A).advised = some 4 ∧ (both.evaluateChain .B).advised = some 1
      ∧ (ran .midEpoch (onTable kitchen)).notices.entries = []
      ∧ (ran .midEpoch (onTable kitchen)).radio.chainA.handed = none := by decide

/-- 4.8: the loads of channel 9 by the manual's own words, slot by slot (R77, R79). -/
theorem test_MidEpochCostsAndAdvises_loads :
    kitchen.networkIn 42 62 = 112 ∧ kitchen.ovensIn 42 62 = 128
      ∧ kitchen.networkIn 42 62 = kitchen.networkLoad (channelSpan 9)
      ∧ kitchen.ovensIn 42 62 = kitchen.ovenLoad (channelSpan 9) := by decide

theorem test_BestChannelIsCheapestNearestLowest :
    let s := advised.costed
    9 ≤ s.radio.domain.highest ∧ (s.chain (otherChain .A)).target ≠ some 9
      ∧ s.bestChannel .A 9 = 4 ∧ s.bestChannel .B 1 = 1
      ∧ (s.chain (otherChain .A)).present ≠ some 9 := by decide

/-! ### The radio chains -/

/-- 6.9: MOVE A to 11. -/
theorem test_MovesStart_move :
    let s := asks 0x20 [0x00, 11] (radios (readyOn 6) (readyOn 1))
    s.Executing 0x20 [chainByte .A, 11] ∧ s.radio.tuneCode 11 ≠ 0
      ∧ (ran .move s).radio.chainA.state = .retuning ∧ (ran .move s).radio.chainA.target = some 11
      ∧ (ran .move s).radio.chainA.present = some 6
      ∧ (ran .move s).radio.chainA.lockTimer = some 2000
      ∧ (ran .move s).link.result = [0x00] := by decide

/-- The result of a STEP, with chain A on channel 3 and chain B on channel 10 (6.9). -/
def stepped (chain step : Byte) : List Byte :=
  (ran .step (asks 0x21 [chain, step] (radios (readyOn 3) (readyOn 10)))).link.result

theorem test_MovesStart_step :
    stepped 0x01 3 = [0x80, 11] ∧ stepped 0x01 1 = [0x00, 11] ∧ stepped 0x01 0xF9 = [0x07, 3]
      ∧ stepped 0x01 0xF7 = [0x00, 1] ∧ stepped 0x00 0xFB = [0x80, 1]
      ∧ stepped 0x00 0xEC = [0x80, 1] ∧ stepped 0x01 0 = [0x00, 10] := by decide

/-- R116 step 4: a STEP of 0 from a channel without a tune code. -/
theorem test_MovesStart_stays :
    let s := asks 0x21 [0x00, 0] { State.reset with
      radio := { Radio.reset with chainA := readyOn 3, chainB := readyOn 4 } }
    s.radio.tuneCode 3 = 0 ∧ (ran .step s).link.result = [0x00, 3]
      ∧ (ran .step s).radio = s.radio := by decide

/-- R140, R141: the move handed over is taken at its mid-epoch, before any time passes. -/
theorem test_MovesStart_automatic :
    let s := ran .midEpoch advised
    (s.chain .A).handed = some 4 ∧ ¬ s.Reaches 1 ∧ ran .epochBoundary s = s
      ∧ (ran (.automaticMove .A) s).radio.chainA.target = some 4
      ∧ (ran (.automaticMove .A) s).radio.chainA.origin = .advisor
      ∧ (ran (.automaticMove .A) s).radio.chainA.handed = none :=
  ⟨by decide, not_reaches_of (by decide) (by decide), by decide, by decide, by decide, by decide⟩

/-- The result of a MOVE of chain A. -/
def movedTo (a b : ChainRec) (ch : Byte) : List Byte :=
  (ran .move (asks 0x20 [0x00, ch] (radios a b))).link.result

theorem test_MoveChecksInOrder :
    movedTo (chainIn .dwell (some 6) none) (readyOn 12) 12 = [0x02]
      ∧ movedTo (readyOn 6) (readyOn 12) 12 = [0x08] ∧ movedTo (readyOn 6) (readyOn 1) 1 = [0x07]
      ∧ (ran .move (asks 0x20 [0x00, 5] (State.reset))).link.result = [0x09]
      ∧ movedTo (readyOn 6) (readyOn 1) 0 = [0x01] ∧ movedTo (readyOn 6) (readyOn 1) 15 = [0x01]
      ∧ (ran .setChannel (asks 0x22 [0x00, 1] (radios (readyOn 6) (readyOn 1)))).link.result = [0x07]
      ∧ (ran .step (asks 0x21 [0x00, 1] State.reset)).link.result = [0x08, 0x00] := by decide

/-- STEP in a move, into the other chain's channel, and to a channel without a code; and chain bytes and channels
outside the formats. -/
theorem test_MoveChecksInOrder_step :
    let s (x y : Byte) (a b : ChainRec) := (ran .step (asks 0x21 [x, y] (radios a b))).link.result
    let bare := { State.reset with radio := { Radio.reset with chainA := readyOn 3 } }
    s 0x00 0xF3 (chainIn .dwell (some 6) none) (readyOn 12) = [0x02, 0x00]
      ∧ s 0x00 1 (readyOn 3) (readyOn 4) = [0x07, 4]
      ∧ (ran .step (asks 0x21 [0x00, 1] bare)).link.result = [0x09, 4]
      ∧ s 0x02 1 (readyOn 3) (readyOn 4) = [0x01, 0x00]
      ∧ (ran .setChannel (asks 0x22 [0x02, 1])).link.result = [0x01]
      ∧ (ran .setChannel (asks 0x22 [0x00, 15])).link.result = [0x01] := by decide

theorem test_MoveChecksInOrder_automatic :
    let s := radios { chainIn .dwell (some 6) none with handed := some 4 } (readyOn 1)
    (s.chain .A).state = .dwell ∧ (s.chain .A).handed = some 4
      ∧ (ran (.automaticMove .A) s).radio.chainA = chainIn .dwell (some 6) none
      ∧ (ran (.automaticMove .A) s).radio.chainB = s.radio.chainB := by decide

/-- 6.9: a dwell cut short, and a second ABORT MOVE. -/
theorem test_SetChannelAndAbortMove :
    let s := asks 0x23 [0x00]
      (radios { chainIn .dwell (some 11) none with origin := .advisor } (readyOn 1))
    (s.chain .A).state = .dwell ∧ (ran .abortMove s).radio.chainA.state = .ready
      ∧ (ran .abortMove s).notices.entries =
          [{ kind := .moveDone, subject := .chain .A, count := 1, data := .moveDone true .advisor }]
      ∧ (ran .abortMove (asks 0x23 [0x00] (radios (readyOn 11) (readyOn 1)))).link.result = [0x0F]
      ∧ (ran .abortMove (asks 0x23 [0x00] (radios (chainIn .retuning none (some 3)) (readyOn 1)))
          ).link.result = [0x02]
      ∧ (ran .abortMove (asks 0x23 [0x02])).link.result = [0x01]
      ∧ (ran .setChannel (asks 0x22 [0x01, 2])).radio.chainB.present = some 2 := by decide

theorem test_LockActsByState :
    let s := radios (chainIn .retuning (some 6) (some 11)) (readyOn 1)
    let z := { s with params := { s.params with dwellTime := 0 } }
    let up := radios { chainIn .retuning (some 6) (some 11) with lockIn := true }
      { readyOn 1 with lockIn := true }
    (ran (.lockAsserted .A) s).radio.chainA.state = .dwell
      ∧ (ran (.lockAsserted .A) s).radio.chainA.present = some 11
      ∧ (ran (.lockAsserted .A) s).radio.chainA.dwellTimer = some 20000
      ∧ (ran (.lockAsserted .A) z).radio.chainA.state = .ready
      ∧ (ran (.lockAsserted .B) s).radio.chainB = { readyOn 1 with lockIn := true }
      ∧ (ran (.lockDeasserted .A) up).radio.chainA = chainIn .retuning (some 6) (some 11)
      ∧ (ran (.lockDeasserted .B) up).radio.chainB = chainIn .fault none none := by decide

/-- R119: a level already asserted is not taken as lock; a fall and a rise complete it. -/
theorem test_LockActsByState_level :
    let up := radios { chainIn .retuning (some 6) (some 11) with lockIn := true } (readyOn 1)
    ran (.lockAsserted .A) up = up
      ∧ (ran (.lockAsserted .A) (ran (.lockDeasserted .A) up)).radio.chainA.state = .dwell := by decide

theorem test_ChainTimersExpire :
    let s := radios (chainIn .retuning (some 6) (some 11)) (chainIn .dwell (some 1) none)
    0 ≤ ((2000 : Time) - s.now).toInt ∧ s.Reaches (s.ahead 2000) ∧ ¬ s.Reaches (s.ahead 20000)
      ∧ (ran (.lockTimerExpiry .A) s).radio.chainA = chainIn .fault none none
      ∧ (ran (.lockTimerExpiry .A) s).now = 2000 ∧ ran (.dwellTimerExpiry .B) s = s :=
  ⟨by decide, reaches_of (by decide) (by decide), not_reaches_of (by decide) (by decide), by decide,
    by decide, by decide⟩

theorem test_ChainTimersExpire_dwell :
    let s := radios (chainIn .retuning (some 6) (some 11)) (chainIn .dwell (some 1) none)
    let d := ran (.lockTimerExpiry .A) s
    let late := atTime 50000 s
    d.Reaches (d.ahead 20000) ∧ (ran (.dwellTimerExpiry .B) d).radio.chainB.state = .ready
      ∧ (ran (.dwellTimerExpiry .B) d).now = 20000
      ∧ (ran (.dwellTimerExpiry .B) d).timebase.epochTimer = 20000
      ∧ late.Reaches (late.ahead 2000) ∧ (ran (.lockTimerExpiry .A) late).now = 50000 :=
  ⟨reaches_of (by decide) (by decide), by decide, by decide, by decide,
    reaches_of (by decide) (by decide), by decide⟩

/-- A lock timer that expires beyond mid-epoch waits for mid-epoch's work. -/
theorem test_ChainTimersExpire_gate :
    let s := atTime 49999 (radios { chainIn .retuning (some 6) (some 11) with lockTimer := some 50001 }
      (readyOn 1))
    ¬ s.Reaches (s.ahead 50001) ∧ ran (.lockTimerExpiry .A) s = s
      ∧ (ran (.lockTimerExpiry .A) (ran .midEpoch s)).now = 50001 :=
  ⟨not_reaches_of (by decide) (by decide), by decide, by decide⟩

theorem test_ChainSettings :
    (ran .setDomain (asks 0x10 [0x03])).radio.domain = .C
      ∧ (ran .setDomain (asks 0x10 [0x01] (radios (readyOn 1) (readyOn 2)))).link.result = [0x06]
      ∧ (ran .setDomain (asks 0x10 [0x00])).link.result = [0x01]
      ∧ (ran .setAuto (asks 0x14 [0x00, 0x02])).link.result = [0x01]
      ∧ (ran .setTuneCode (asks 0x13 [15, 0, 1])).link.result = [0x01]
      ∧ (ran .setAuto (asks 0x14 [0x01, 0x01])).radio.chainB.auto = true
      ∧ (ran .setTuneCode (asks 0x13 [14, 0x10, 0x00])).radio.tuneMap[13]? = some 4095
      ∧ (ran .setTuneCode (asks 0x13 [14, 0x10, 0x00])).link.result = [0x80, 0x0F, 0xFF]
      ∧ (ran .setTuneCode (asks 0x13 [1, 0, 0] (radios (readyOn 1) (readyOn 2)))).link.result
          = [0x08] := by decide

/-! ### The timebase -/

def clocked (c : ClockState) (q : Qualification) : State :=
  { State.reset with timebase :=
    { Timebase.reset with clock := c, qual := q, refPresent := decide (q ≠ .idle) } }

/-- The RESTORE CLOCK lines of 8.7. -/
theorem test_RestoreClockByState :
    (ran .restoreClock (asks 0x15 [] (clocked .fallback (.qualifying 9)))).link.result = [0x0D]
      ∧ (ran .restoreClock (asks 0x15 [] (clocked .fallback .qualified))).timebase.clock = .reference
      ∧ (ran .restoreClock (asks 0x15 [] (clocked .internalStart .idle))).link.result = [0x00]
      ∧ (ran .restoreClock (asks 0x15 [] (clocked .reference .qualified))).link.result = [0x00] := by
  decide

/-- The loss, return and qualification lines of 8.7. -/
theorem test_ReferenceEvents :
    (ran .referenceReturn State.reset).timebase.qual = .qualifying 1000
      ∧ (ran .qualificationExpiry (clocked .internalStart (.qualifying 1420))).timebase.clock = .reference
      ∧ (ran .qualificationExpiry (clocked .internalStart (.qualifying 1420))).now = 1420
      ∧ (ran .referenceLoss (clocked .reference .qualified)).timebase.clock = .fallback
      ∧ (ran .referenceLoss (clocked .reference .qualified)).notices.attention = true
      ∧ (ran .referenceLoss (clocked .internalStart (.qualifying 9))).timebase.qual = .idle
      ∧ (ran .qualificationExpiry (clocked .fallback (.qualifying 9))).notices.entries.map (·.kind)
          = [.referencePresent] := by decide

theorem test_ReferenceEvents_gate :
    let s := clocked .internalStart (.qualifying 1420)
    let late := atTime 49999 (clocked .internalStart (.qualifying 50001))
    s.Reaches (s.ahead 1420) ∧ (ran .qualificationExpiry s).timebase.epochTimer = 1420
      ∧ ¬ late.Reaches (late.ahead 50001) ∧ ran .qualificationExpiry late = late
      ∧ ran .referenceReturn (clocked .reference .qualified) = clocked .reference .qualified
      ∧ ran .referenceLoss State.reset = State.reset :=
  ⟨reaches_of (by decide) (by decide), by decide, not_reaches_of (by decide) (by decide), by decide,
    by decide, by decide⟩

/-! ### The window predictor -/

/-- The query of 5.11. -/
def query17 : List Byte := [17, 0x00, 0x03, 0xE8, 0x0F, 0xA0, 0x75, 0x30]

def scene : State :=
  { radios (readyOn 9) (readyOn 1) (inReference (onTable kitchen)) with
    timebase := { Timebase.reset with time := 1064000, clock := .reference, refPresent := true,
                                      qual := .qualified } }

theorem test_QueryAcceptedOrRefused_accepted :
    (ran (.queryArrival query17) scene).predictor.queue =
      [{ tag := 17, chain := .A, arrival := 1064000, t0 := 1065000, d := 4000, h := 30000 }]
      ∧ (ran (.queryArrival [17, 0x81, 0, 0, 0, 0, 0xFF, 0xFF]) scene).predictor.queue =
      [{ tag := 17, chain := .B, arrival := 1064000, t0 := 1064000, d := 1, h := 100000 }] := by decide +kernel

theorem test_QueryAcceptedOrRefused_refused :
    let q : Query := { tag := 1, chain := .A, arrival := 0, t0 := 0, d := 1, h := 1 }
    let s := { State.reset with predictor := { Predictor.reset with queue := List.replicate 4 q } }
    4 ≤ s.predictor.queue.length
      ∧ (ran (.queryArrival query17) s).predictor.answers.map (fun a => (a.tag, a.status))
          = [(17, .refused)]
      ∧ (ran (.queryArrival [5, 0x02, 0, 0, 0, 0, 0, 0]) State.reset).predictor.answers.map (·.status)
          = [.refused] := by decide

def waiting17 : State := ran (.queryArrival query17) scene

/-- 5.11: the window of the worked query, and NONE for d = 8,000. -/
theorem test_EngineIsHandedOut :
    scene.predictor.engine = .idle
      ∧ waiting17.predictor.engine =
          .evaluating .scheduler (waiting17.snapshot .A) (.window 7705 6630 2)
      ∧ (waiting17.snapshot .A).evaluate 1064000 1065000 8000 30000 = .none 2
      ∧ (waiting17.snapshot .A).evaluate 1064000 1065000 6630 30000 = .window 7705 6630 2
      ∧ (waiting17.snapshot .A).evaluate 1064000 1073000 4000 30000 = .window 9000 5335 2 := by decide

/-- A PREVIEW of the same figures, stamped with its entry into EXECUTION, takes the idle engine. -/
theorem test_EngineIsHandedOut_preview :
    let s := asks 0x51 [0x00, 0x03, 0xE8, 0x0F, 0xA0, 0x75, 0x30] scene
    let e := { s with link := { s.link with entered := 1064000 } }
    e.predictor.preview = none
      ∧ ((ran .preview e).predictor.preview.map (fun p => (p.t0, p.d, p.h))) = some (1065000, 4000, 30000)
      ∧ (ran .preview (asks 0x51 [0x02, 0, 0, 0, 0, 0, 0])).link.result = [0x01]
      ∧ (ran .delivery (ran .preview e)).link.result
          = [0x11, 0, 0x1E, 0x19, 0, 0x19, 0xE6, 2, 1, 0, 112] := by decide

/-- R88: a query that arrives after a PREVIEW has taken the engine waits; the engine then goes to it. -/
theorem test_EngineIsHandedOut_order :
    let s := asks 0x51 [0x00, 0x03, 0xE8, 0x0F, 0xA0, 0x75, 0x30] scene
    let both := ran (.queryArrival query17) (ran .preview s)
    let client (s : State) : Option Client := match s.predictor.engine with
      | .evaluating c _ _ => some c
      | .idle => none
    client both = some .preview ∧ client (ran .delivery both) = some .scheduler
      ∧ client (ran .delivery (ran .delivery both)) = none ∧ both.handOver = both
      ∧ State.reset.handOver = State.reset := by decide

/-- 5.11, the snapshot: one relevant oven, W_eff 1,500, network load 112. -/
theorem test_SnapshotKeepsTheRelevantOvens :
    (scene.chain .A).present = some 9
      ∧ (scene.snapshot .A).ovens = [{ a16 := 16960480, p16 := 320080, d := 9975, wEff := 1500 }]
      ∧ (scene.snapshot .A).load = 112 ∧ (scene.snapshot .A).leftOut = 0 := by decide

/-- With nine relevant ovens the one of fewest hits is left out; among equal hits, the highest slot (R93). -/
theorem test_SnapshotKeepsTheRelevantOvens_left_out :
    let l (few : Nat) := (List.range 9).map (fun i =>
      (i, { heard2 with hits := if i = few then 3 else 40 }, ovenHit2))
    (keptOvens (l 4)).map (·.1) = [0, 1, 2, 3, 5, 6, 7, 8]
      ∧ (keptOvens (l 9)).map (·.1) = [0, 1, 2, 3, 4, 5, 6, 7]
      ∧ (radios (readyOn 9) (chainIn .unset none none) (onTable kitchen)).snapshot .B
          = { (State.reset.snapshot .B) with chain := .B } := by decide

/-- 5.11: the forbidden intervals k = 0 and k = 1. -/
theorem test_WindowCarriesItsFreeLength :
    let n := scene.snapshot .A
    n.state = .ready ∧ (∀ o ∈ n.ovens, 0 < o.p16)
      ∧ n.evaluate 1064000 1065000 4000 30000 = .window 7705 6630 2
      ∧ n.ovens.map (fun o => (o.lower 1065000 200 0, o.upper 1065000 200 0)) = [(-6670, 6705)]
      ∧ n.ovens.map (fun o => (o.lower 1065000 200 1, o.upper 1065000 200 1)) = [(13335, 26710)] := by
  decide

theorem test_WindowIsEarliest :
    let n := { scene.snapshot .A with clock := .fallback }
    n.state = .ready ∧ (∀ o ∈ n.ovens, 0 < o.p16)
      ∧ n.evaluate 1064000 1065000 8000 40000 = .none 2
      ∧ n.evaluate 1064000 1065000 1 0 = .none 2 := by decide

/-- R95, R100: the manual's own edges for the intervals of 5.11, and the grades at their limits. -/
theorem test_WindowCarriesItsFreeLength_edges :
    let o : SnapOven := { a16 := 16960480, p16 := 320080, d := 9975, wEff := 1500 }
    o.lowerEdge 1065000 200 0 = -6670 ∧ o.upperEdge 1065000 200 0 = 6705
      ∧ o.lowerEdge 1065000 200 1 = 13335 ∧ o.upperEdge 1065000 200 1 = 26710
      ∧ [0, 31, 32, 95, 96, 159, 160, 255].map gradeOf = [0, 0, 1, 1, 2, 2, 3, 3] := by
  simp only [SnapOven.lowerEdge_eq, SnapOven.upperEdge_eq]
  decide

/-- 5.11: the answer leaves as computed, or NOT_READY where chain A has begun a move. -/
theorem test_AnswersLeaveInOrder :
    let s := waiting17
    (ran .delivery s).predictor.answers.map (fun a => (a.tag, a.status, a.startOffset, a.freeLength, a.grade))
        = [(17, .window, 7705, 6630, 2)]
      ∧ (ran .delivery (s.setChain .A (chainIn .retuning (some 9) (some 4)))).predictor.answers.map
          (fun a => (a.tag, a.status, a.startOffset)) = [(17, .notReady, 0)]
      ∧ (ran .answerFrameSent (ran .delivery s)).predictor.answerLines
          = [17, 0x11, 0, 0x1E, 0x19, 0, 0x19, 0xE6, 2]
      ∧ (ran .delivery s).predictor.queue = [] := by decide

theorem test_AnswersLeaveInOrder_none :
    let n := scene.snapshot .A
    let q : Query := { tag := 3, chain := .A, arrival := 0, t0 := 0, d := 1, h := 1 }
    let served (c : Client) : State := asks 0x51 [] { scene with predictor :=
      { Predictor.reset with queue := [q], engine := .evaluating c n (.none 2) } }
    (ran .delivery (served .scheduler)).predictor.answers.map (fun a => (a.status, a.grade)) = [(.none, 2)]
      ∧ (ran .delivery (served .preview)).link.result = [0x0B, 0, 0, 0, 0, 0, 0, 2, 1, 0, 112] := by decide

/-! ### The control link -/

def linked (t : Transaction) (ph : Phase) (s : State := State.reset) : State :=
  { s with link := { Link.reset with transaction := t, phase := ph, code := some 0x40, expected := 2 } }

/-- The status bytes of 12.6, and the last result byte. -/
theorem test_TransactionsAndReads :
    (ran .selectAsserted State.reset).link.transaction = .opened
      ∧ (ran (.statusExchange 0x3C) (linked .opened .idle)).link.miso = some 0x51
      ∧ (ran (.statusExchange 0xC3) (linked .opened .result)).link.miso = some 0x57
      ∧ (ran (.statusExchange 0x00) (linked .opened .idle)).link.transaction = .status
      ∧ (ran .readResultByte (linked .read .idle)).link.miso = some 0x51
      ∧ (ran .selectDeasserted (linked .read .idle)).link.transaction = .none := by decide

/-- R161: a READ exchange begun in EXECUTION consumes nothing though the link is in RESULT at its end; a WRITE exchange
begun there echoes 0x54, and its byte abandons the result. -/
theorem test_TransactionsAndReads_latch :
    let s (x : Transaction) : State := { State.reset with link :=
      { Link.reset with transaction := x, phase := .result, code := some 0x60, result := [1, 2]
                        begun := some { phase := .execution, attention := false } } }
    (ran .readResultByte (s .read)).link.miso = some 0x54
      ∧ (ran .readResultByte (s .read)).link.consumed = 0
      ∧ (ran .readResultByte (s .read)).link.begun = none
      ∧ (ran (.abandon 0x61) (s .write)).link.miso = some 0x54
      ∧ (ran (.abandon 0x61) (s .write)).link.result = [0x01]
      ∧ (ran .selectDeasserted (s .read)).link.begun = none := by decide

theorem test_TransactionsAndReads_result :
    let s : State := { State.reset with link :=
      { Link.reset with transaction := .read, phase := .result, code := some 0x60, result := [1, 2] } }
    (ran .readResultByte s).link.miso = some 1 ∧ (ran .readResultByte s).link.phase = .result
      ∧ (ran .readResultByte (ran .readResultByte s)).link.miso = some 2
      ∧ (ran .readResultByte (ran .readResultByte s)).link.phase = .idle := by decide

/-- 12.6: the OPEN code turns IDLE into COMMAND; an unassigned code is INVALID. -/
theorem test_RequestCodeByItsCount :
    (ran (.requestCode 0x40) (linked .write .idle)).link.phase = .command
      ∧ (ran (.requestCode 0x40) (linked .write .idle)).link.expected = 2
      ∧ (ran (.requestCode 0x60) (linked .write .idle)).link.phase = .execution
      ∧ (ran (.requestCode 0x61) (linked .write .idle)).link.result = [0x01] := by decide

theorem test_WrittenBytesByPhase :
    (ran (.parameterByte 0x25) (linked .write .command)).link.phase = .command
      ∧ (ran (.parameterByte 0x25) (ran (.parameterByte 0x00) (linked .write .command))).link.phase
          = .execution
      ∧ (ran (.parameterByte 0x25) (ran (.parameterByte 0x00) (linked .write .command))).link.params
          = [0x00, 0x25]
      ∧ (ran (.ignoredByte 9) (linked .write .execution)).link.phase = .execution
      ∧ (ran (.ignoredByte 9) (linked .write .execution)).link.miso = some 0x54
      ∧ (ran (.abandon 0x01) (linked .write .result)).link.phase = .execution
      ∧ (ran (.abandon 0x01) (atTime 77 (linked .write .result))).link.entered = 77 := by decide

def sweeping : Sweep :=
  { filter := { kind := some .oven, states := [.tracked, .coasting], field := .period, cond := .atMost,
                key := 20010 },
    maximum := 8, clamped := false, next := 2, examined := 63, found := [] }

def inWrite (s : State) : State := { s with link := { s.link with transaction := .write } }

theorem test_AbortEndsALongRequest :
    let w := inWrite (asks 0x50 [] { State.reset with sweep := some { sweeping with found := [(2, 5)] } })
    let p := inWrite (asks 0x51 [] { scene with predictor := { Predictor.reset with
      preview := some { chain := .A, arrival := 0, t0 := 0, d := 1, h := 1 },
      engine := .evaluating .preview (scene.snapshot .A) .notReady } })
    (ran (.abort 0) w).link.result.take 4 = [0x0C, 1, 0x00, 0x25]
      ∧ (ran (.abort 0) w).link.result.length = 19 ∧ (ran (.abort 0) w).sweep = none
      ∧ (ran (.abort 0) p).link.result = [0x0C] ∧ (ran (.abort 0) p).predictor = Predictor.reset := by
  decide

/-- A PREVIEW that waits is withdrawn with the engine untouched; one being evaluated leaves the engine to the queue. -/
theorem test_AbortEndsALongRequest_queue :
    let q : Query := { tag := 1, chain := .A, arrival := 0, t0 := 0, d := 1, h := 1 }
    let s (c : Client) := inWrite (asks 0x51 [] { scene with predictor := { Predictor.reset with
      queue := [q], preview := some { chain := .A, arrival := 0, t0 := 0, d := 1, h := 1 },
      engine := .evaluating c (scene.snapshot .A) .notReady } })
    (ran (.abort 0) (s .scheduler)).predictor.engine = (s .scheduler).predictor.engine
      ∧ (ran (.abort 0) (s .preview)).predictor.engine
          = .evaluating .scheduler (scene.snapshot .A) ((scene.snapshot .A).evaluate 0 0 1 1)
      ∧ (ran (.abort 0) (s .preview)).predictor.preview = none := by decide

/-! ### Requests that read, and the parameters -/

theorem test_ReadersChangeNothing :
    (ran .readStatus (asks 0x01 [])).link.result =
        [0x00, 0x00, 0, 0, 0, 0, 0x01, 0, 0, 0, 0, 0, 0, 0, 0, 64, 0, 0, 0, 0, 0, 0]
      ∧ (ran .readCosts (asks 0x52 [])).link.result = List.replicate 48 0
      ∧ (ran .readRecord (asks 0x41 [])).link.result = [0x0E] := by decide

/-- 12.6: the image of the oven of slot 2, held. -/
theorem test_ReadersChangeNothing_read :
    let s := asks 0x41 [] { onTable (holding 3 [(2, 5, { heard2 with held := true })]) with
      cursor := some { slot := 2, gen := 5, staged := { Staged.empty with w := some 4000 } } }
    (ran .readRecord s).link.result = [0x00, 0x00, 0x25, 0x10, 0x01, 0x02, 0x02, 45, 71, 40, 0, 0, 0,
      0x03, 0x04, 0xE2, 0x50, 0x00, 0x10, 0x2C, 0xBE, 0x26, 0xF7, 0x05, 0xDC] := by decide

/-- 12.2: every field of the status record away from its reset value. -/
theorem test_ReadersChangeNothing_status :
    let s := asks 0x01 [] (radios (chainIn .retuning (some 6) (some 11)) { readyOn 1 with auto := true }
      (inReference (onTable (holding 4 [(0, 0, { oven2 with origin := .pinned }), (1, 0, candidate0)]))))
    let u := { s with timebase := { s.timebase with time := 0x01020304 }
                      intake := { s.intake with blindThrough := .current } }
    (ran .readStatus u).link.result = [0x00, 1, 1, 2, 3, 4, 0x81, 2, 6, 11, 0, 1, 1, 0, 1, 2, 1, 1, 0, 0, 1,
      0x01] := by decide

/-- 12.2, 12.3: the advice fields of READ COSTS, and the images of the two other kinds. -/
theorem test_ReadersChangeNothing_costs :
    let s := asks 0x52 [] (radios { readyOn 9 with streak := 2 } { readyOn 1 with lastAdvised := some 4 })
    (ran .readCosts s).link.result = List.replicate 44 0 ++ [2, 0, 0, 4]
      ∧ neighbour4.image = [2, 2, 0, 42, 62, 40, 0, 0, 0, 1, 2, 9, 72, 0, 0, 0, 0xC4, 0, 0, 0, 0]
      ∧ steady7.image = [3, 3, 0, 55, 75, 40, 0, 0, 0, 40, 0, 0, 0, 0xBA, 0, 0, 0, 0, 0, 0, 0] := by decide

/-- The examples of R175. -/
theorem test_SetParameterClampsAndHolds :
    (ran .setParameter (asks 0x11 [0x02, 0x01, 0x2C])).link.result = [0x80, 0x00, 200]
      ∧ (ran .setParameter (asks 0x11 [0x05, 0, 0])).params.ovenConfirm = 2
      ∧ (ran .setParameter (asks 0x11 [0x03, 0, 200])).link.result = [0x00, 0x00, 200]
      ∧ (ran .setParameter (asks 0x11 [0x0F, 0, 0])).link.result = [0x01]
      ∧ (ran .setParameter (asks 0x11 [0x0E, 0, 9])).params.attentionThreshold = 7 := by decide

/-! ### Notices -/

def entry (k : NoticeKind) (subj : Subject) (count : Nat) : Entry :=
  { kind := k, subject := subj, count := count, data := .none }

/-- The full list of 11.7. -/
def fullList : List Entry :=
  [entry .neighbourRetired (.handle 14 2) 1, entry .neighbourConfirmed (.handle 3 0) 1,
    entry .neighbourConfirmed (.handle 8 1) 1, entry .neighbourConfirmed (.handle 21 0) 1,
    entry .intakeOverflow .none 2, entry .ovenConfirmed (.handle 2 5) 1]
    ++ (List.range 9).map (fun i => entry .ovenConfirmed (.handle (40 + i) 0) 1)
    ++ [entry .moveDone (.chain .A) 1]

def full : State :=
  { State.reset with
    notices := { Notices.reset with entries := fullList, attention := true }
    params := { Params.reset with attentionThreshold := 4 } }

theorem test_RaisingANotice_merges :
    16 ≤ full.notices.entries.length
      ∧ ((full.raise .ovenConfirmed (.handle 30 4) .none).notices.entries[5]?)
          = some (entry .ovenConfirmed .several 2)
      ∧ (((full.raise .ovenConfirmed (.handle 30 4) .none).raise .ovenConfirmed (.handle 31 0) .none
          ).notices.entries[5]?) = some (entry .ovenConfirmed .several 3)
      ∧ ((full.raise .intakeOverflow .none .none).notices.entries[4]?)
          = some (entry .intakeOverflow .none 3) := by decide

theorem test_RaisingANotice_replaces :
    (full.raise .tableFull .none .none).notices.entries
        = fullList.drop 1 ++ [entry .tableFull .none 1]
      ∧ ((full.raise .tableFull .none .none).raise .clockFallback .none .none).notices.entries
          = fullList.drop 2 ++ [entry .tableFull .none 1, entry .clockFallback .none 1]
      ∧ (State.raise { full with notices := { full.notices with
          levels := { Levels.reset with tableFull := 0 } } } .tableFull .none .none).notices.entries
          = fullList := by decide

/-- 11.7: with the threshold at 4, INTAKE_OVERFLOW is fetched first and the line falls. -/
theorem test_NoticeRequests_fetch :
    (ran .fetchNotice (asks 0x60 [] full)).link.result = [0x00, 6, 0xFF, 0xFF, 2, 0]
      ∧ (ran .fetchNotice (asks 0x60 [] full)).notices.attention = false
      ∧ (ran .fetchNotice (asks 0x60 [])).link.result = [0x0B]
      ∧ (ran .fetchNotice (asks 0x60 [] (ran .fetchNotice (asks 0x60 [] full)))).link.result
          = [0x00, 1, 0x00, 0x25, 1, 0]
      ∧ (ran .fetchNotice (asks 0x60 [] (State.reset.raise .moveFailed (.chain .B)
          (.moveFailed .lockLost .advisor)))).link.result = [0x00, 10, 0xF0, 0x01, 1, 3] := by decide

theorem test_NoticeRequests_level :
    (ran .setNoticeLevel (asks 0x12 [6, 0] full)).notices.attention = false
      ∧ (ran .setNoticeLevel (asks 0x12 [6, 200])).link.result = [0x80, 7]
      ∧ (ran .setNoticeLevel (asks 0x12 [7, 2])).link.result = [0x80, 7]
      ∧ (ran .setNoticeLevel (asks 0x12 [12, 2])).link.result = [0x01]
      ∧ (ran .setNoticeLevel (asks 0x12 [0, 2])).link.result = [0x01] := by decide

/-! ### Requests on records -/

/-- The table of R2. -/
theorem test_HandleResolution :
    let t := holding 3 [(2, 5, oven2), (1, 1, { oven2 with state := .retired, held := true })]
    t.resolve 0xFFFF = .refused .empty ∧ t.resolve 0x0400 = .refused .invalid
      ∧ t.resolve 0x0026 = .refused .stale ∧ t.resolve 0 = .refused .empty
      ∧ t.resolve 0x0011 = .refused .empty ∧ t.resolve 0x0025 = .record 2 oven2
      ∧ t.resolve 0x03FF = .refused .stale ∧ t.resolve 0xFFFE = .refused .invalid := by decide

/-- 3.10: a pinned oven of 266,672 sub-µs units, D and W absent. -/
theorem test_PinInstalls :
    let s := asks 0x30 [0x01, 45, 71, 0x04, 0x11, 0xB0, 0xFF, 0xFF, 0xFF, 0xFF, 0, 0, 0]
      (onTable (holding 2 [(0, 0, oven2)]))
    s.table.LowestFree 1 ∧ s.table.pinned < 16
      ∧ (ran .pin s).table.record 1 = some { pinned3 with seq := 60, span := ⟨45, 71⟩ }
      ∧ (ran .pin s).link.result = [0x00, 0x00, 0x10] ∧ (ran .pin s).table.pinned = 1 := by decide +kernel

theorem test_PinInstalls_other_kinds :
    let n := asks 0x30 [0x02, 0, 0, 0, 0, 0, 0, 0, 0, 0, 14, 1, 2]
    let y := asks 0x30 [0x03, 60, 100, 0, 0, 0, 0, 0, 0, 0, 0, 0, 0]
    ((ran .pin n).table.record 0).map (fun r => (r.span, r.part)) =
        some (⟨74, 94⟩, .neighbour 0x0102 14 { share := 0, acc := 0, level := -100 })
      ∧ ((ran .pin y).table.record 0).map (fun r => (r.span, r.state, r.origin)) =
          some (⟨60, 100⟩, .tracked, .pinned)
      ∧ (ran .pin { y with table := { y.table with pinned := 16 } }).link.result = [0x0A]
      ∧ (ran .pin (asks 0x30 [0x03, 61, 60, 0, 0, 0, 0, 0, 0, 0, 0, 0, 0])).link.result = [0x01] := by
  decide

/-- R189: clamped values set the flag, the width is reduced from the low edge, an evicted candidate's slot is taken, and
a table without a slot is FULL. -/
theorem test_PinInstalls_clamped :
    let s (bs : List Byte) := ran .pin (asks 0x30 bs (onTable crowded))
    (s [0x01, 20, 110, 0, 0, 1, 0, 1, 0xFF, 0xFF, 0, 0, 0]).link.result = [0x80, 0x00, 0x04]
      ∧ (s [0x01, 20, 110, 0, 0, 1, 0, 1, 0xFF, 0xFF, 0, 0, 0]).table.record 0 =
          some { pinned3 with seq := 60, span := ⟨20, 60⟩, part := .oven (OvenPart.mk true 256000 false 0 1000 1500 none none) }
      ∧ (s [0x01, 20, 110, 0, 0, 1, 0, 1, 0xFF, 0xFF, 0, 0, 0]).table.pinned = 1
      ∧ (s [0x03, 130, 100, 0, 0, 0, 0, 0, 0, 0, 0, 0, 0]).link.result = [0x80, 0x00, 0x04] := by
  decide +kernel

theorem test_PinInstalls_refused :
    let s (bs : List Byte) (t : Table) := (ran .pin (asks 0x30 bs (onTable t))).link.result
    s [0x03, 20, 30, 0, 0, 0, 0, 0, 0, 0, 0, 0, 0] (holding 1 [(0, 0, oven2)]) = [0x0A]
      ∧ s [0x01, 90, 30, 0, 0, 0, 0, 0, 0, 0, 0, 0, 0] crowded = [0x01]
      ∧ s [0x04, 20, 30, 0, 0, 0, 0, 0, 0, 0, 0, 0, 0] crowded = [0x01]
      ∧ s [0x02, 20, 30, 0, 0, 0, 0, 0, 0, 0, 15, 0, 0] crowded = [0x01] := by decide

theorem test_OriginAndRetireRequests :
    let t := holding 3 [(2, 5, oven2), (1, 1, { oven2 with origin := .pinned }),
      (0, 0, { neighbour4 with state := .candidate, hits := 2 })]
    let s (bs : List Byte) := asks 0x31 bs (onTable t)
    t.resolve 0x25 = .record 2 oven2
      ∧ (ran .setOrigin (s [0x00, 0x25, 0x01])).link.result = [0x00, 0x02, 0x01]
      ∧ (ran .setOrigin (s [0x00, 0x25, 0x01])).table.pinned = 2
      ∧ (ran .setOrigin (s [0x00, 0x11, 0x00])).link.result = [0x00, 0x02, 0x00]
      ∧ (ran .setOrigin (s [0x00, 0x00, 0x01])).notices.entries.map Entry.key =
          [(.neighbourConfirmed, .handle 0 0)]
      ∧ (ran .setOrigin (asks 0x31 [0x00, 0x25, 0x01] (onTable { t with pinned := 16 }))).link.result
          = [0x0A]
      ∧ (ran .setOrigin (s [0x00, 0x24, 0x01])).link.result = [0x03]
      ∧ (ran .setOrigin (s [0x00, 0x24, 0x02])).link.result = [0x01] := by decide

/-- 10.8: RETIRE of a held record; of one that is not held; and of a handle that names no slot. -/
theorem test_OriginAndRetireRequests_retire :
    let s (held : Bool) := asks 0x32 [0x00, 0x02]
      (onTable (holding 1 [(0, 2, { candidate0 with held := held })]))
    (ran .retire (s true)).link.result = [0x00, 0x01]
      ∧ ((ran .retire (s true)).table.slot 0).gen = 2
      ∧ ((ran .retire (s true)).table.record 0).map (·.state) = some .retired
      ∧ (ran .retire (s false)).table.slot 0 = ⟨3, none⟩
      ∧ (ran .retire (asks 0x32 [0x04, 0x00])).link.result = [0x01]
      ∧ (ran .retire (asks 0x32 [0xFF, 0xFF])).link.result = [0x04] := by decide

/-- The table of 10.8, with the cursor on a slot. -/
def session (held : Nat) (staged : Staged) : State :=
  { onTable (holding 64
      [(0, 2, { steady7 with state := .candidate, span := ⟨20, 30⟩, hits := 1, held := decide (held = 0) }),
       (2, 5, { heard2 with held := decide (held = 2) }),
       (9, 1, { neighbour4 with held := decide (held = 9) })]) with
    cursor := if held < 64 then
      some { slot := held, gen := (if held = 0 then 2 else if held = 2 then 5 else 1), staged := staged }
      else none }

theorem test_OpenAndEdit_open :
    let s := asks 0x40 [0x00, 0x25] (session 64 Staged.empty)
    s.cursor = none ∧ (ran .openRecord s).link.result.take 4 = [0x00, 0x00, 0x00, 0x25]
      ∧ (ran .openRecord s).link.result.length = 25
      ∧ ((ran .openRecord s).table.record 2).map (·.held) = some true
      ∧ (ran .openRecord (asks 0x40 [0x00, 0x91] (session 2 Staged.empty))).link.result.take 4
          = [0x00, 0x01, 0x00, 0x91]
      ∧ (ran .openRecord (asks 0x40 [0x00, 0x92] (session 2 Staged.empty))).link.result = [0x03] := by
  decide

/-- R181 step 3: OPEN of the record already held discards what was staged. -/
theorem test_OpenAndEdit_again :
    let s := asks 0x40 [0x00, 0x25] (session 2 { Staged.empty with w := some 4000 })
    s.table.resolve 0x25 = .record 2 { heard2 with held := true }
      ∧ (ran .openRecord s).link.result.take 4 = [0x00, 0x01, 0x00, 0x25]
      ∧ (ran .openRecord s).table = s.table
      ∧ (ran .openRecord s).cursor = some { slot := 2, gen := 5, staged := Staged.empty } := by decide

/-- 12.1, R183: the fields of a NEIGHBOUR, an EDIT of P, and fields that do not belong to the kind. -/
theorem test_OpenAndEdit_fields :
    let s (held : Nat) (bs : List Byte) := ran .editField (asks 0x42 bs (session held Staged.empty))
    ((s 9 [0x06, 0, 0, 15]).cursor.map (·.staged.channel)) = some (some 14)
      ∧ ((s 9 [0x07, 0, 1, 2]).cursor.map (·.staged.tag)) = some (some 258)
      ∧ ((s 2 [0x03, 0x04, 0xE2, 0x00]).cursor.map (·.staged.p)) = some (some 320000)
      ∧ (s 9 [0x01, 0, 0, 5]).link.result = [0x01] ∧ (s 0 [0x04, 0, 0, 5]).link.result = [0x01]
      ∧ (s 0 [0x01, 0, 0, 5]).link.result = [0x00, 0, 0, 5] := by decide

/-- 10.8: EDIT of W and of span high, both clamped. -/
theorem test_OpenAndEdit_edit :
    let s (bs : List Byte) := asks 0x42 bs (session 2 Staged.empty)
    (ran .editField (s [0x05, 0x00, 0x13, 0x88])).link.result = [0x80, 0x00, 0x0F, 0xA0]
      ∧ ((ran .editField (s [0x02, 0, 0, 110])).cursor.map (·.staged.spanHigh)) = some (some 100)
      ∧ (ran .editField (s [0x06, 0, 0, 1])).link.result = [0x01]
      ∧ (ran .editField (s [0x08, 0, 0, 1])).link.result = [0x01]
      ∧ (ran .editField (asks 0x42 [0x05, 0, 0, 1])).link.result = [0x0E]
      ∧ (ran .editField (s [0x05, 0x00, 0x13, 0x88])).table = (s []).table := by decide

/-- 10.8: with span high 100 staged alone, the low edge is moved in to 60. -/
theorem test_CloseReleases_commit :
    let g := { Staged.empty with w := some 4000, spanHigh := some 100 }
    let s := asks 0x43 [0x01] (session 2 g)
    heard2.commitConfirms g s.params = false
      ∧ (ran .closeRecord s).table.record 2 =
          some { heard2 with span := ⟨60, 100⟩, part := .oven { ovenHit2 with w := 4000 } }
      ∧ (ran .closeRecord s).link.result = [0x80] ∧ (ran .closeRecord s).cursor = none := by decide

/-- R186: a commit of P to a candidate that has its hits confirms it with its notice; one of too few hits stays. -/
theorem test_CloseReleases_confirms :
    let g := { Staged.empty with p := some 320000 }
    let s (hits : Nat) := asks 0x43 [0x01]
      { onTable (holding 1 [(0, 3, { candidate0 with hits := hits, held := true, age := 2 })]) with
        cursor := some { slot := 0, gen := 3, staged := g } }
    Record.commitConfirms { candidate0 with hits := 3, held := true } g Params.reset = true
      ∧ ((ran .closeRecord (s 3)).table.record 0).map (fun r => (r.state, r.held, r.age))
          = some (.tracked, false, 0)
      ∧ (ran .closeRecord (s 3)).notices.entries.map Entry.key = [(.ovenConfirmed, .handle 0 3)]
      ∧ ((ran .closeRecord (s 2)).table.record 0).map (·.state) = some .candidate
      ∧ (ran .closeRecord (s 2)).notices.entries = [] := by decide

theorem test_CloseReleases :
    let s (mode : Byte) (g : Staged) := asks 0x43 [mode] (session 2 g)
    let gone := asks 0x43 [0x00] { session 64 Staged.empty with
      table := holding 1 [(0, 2, { steady7 with state := .retired, held := true })]
      cursor := some { slot := 0, gen := 2, staged := Staged.empty } }
    (ran .closeRecord (s 0x00 Staged.empty)).link.result = [0x00]
      ∧ ((ran .closeRecord (s 0x00 Staged.empty)).table.record 2).map (·.held) = some false
      ∧ (ran .closeRecord (s 0x01 { Staged.empty with spanLow := some 70, spanHigh := some 65 })
          ).link.result = [0x01]
      ∧ (ran .closeRecord gone).link.result = [0x05] ∧ (ran .closeRecord gone).table.slot 0 = ⟨3, none⟩
      ∧ (ran .closeRecord (s 0x02 Staged.empty)).link.result = [0x01]
      ∧ (ran .closeRecord (asks 0x43 [0x01])).link.result = [0x0E] := by decide

theorem test_CommitOverlaysStagedFields :
    heard2.SpanLawful ∧ neighbour4.SpanLawful
      ∧ (({ Staged.empty with w := some 4000, spanHigh := some 100 } : Staged).Lawful)
      ∧ (heard2.committed { Staged.empty with spanLow := some 20 }).map (fun x => (x.1.span, x.2))
          = some (⟨20, 60⟩, true)
      ∧ heard2.committed { Staged.empty with spanLow := some 72 } = none
      ∧ (heard2.committed { Staged.empty with spanHigh := some 85 }).map (fun x => (x.1.span, x.2))
          = some (⟨45, 85⟩, false)
      ∧ (neighbour4.committed { Staged.empty with channel := some 14 }).map (·.1.span)
          = some ⟨74, 94⟩
      ∧ (steady7.committed { Staged.empty with spanLow := some 50 }).map (fun x => (x.1.span, x.1.part))
          = some (⟨50, 75⟩, steady7.part) := by decide

/-- CLOSE COMMIT of a P of 300,000 at the boundary of 3.10, whose work is due or has been taken. -/
def meeting (due : Bool) (o : OvenPart) : State :=
  asks 0x43 [0x01] { session 2 { Staged.empty with p := some 300000 } with
    table := holding 3 [(2, 5, { heard2 with held := true, part := .oven o })]
    timebase := { Timebase.reset with time := 1100000, boundaryDue := due } }

def ovenAfter (s : State) : Option OvenPart := (s.table.record 2).bind Record.oven?

/-- R66, the row on a commit of P: m is 1 by the old P16 of 320,080 and 2 by the new one. The commit first: the
rebase that follows uses the old; the rebase first: the new, unless a report has moved the anchor since. -/
theorem test_CommitOverlaysStagedFields_rebase :
    let rebased : OvenPart := { ovenHit2 with a16 := 17280560, former := some ⟨16960480, 17280560⟩ }
    ovenAfter (ran .closeRecord (meeting true ovenHit2))
        = some { ovenHit2 with p16 := 300000, stood := some 320080 }
      ∧ ovenAfter (ran .epochBoundary (ran .closeRecord (meeting true ovenHit2)))
          = some { rebased with p16 := 300000 }
      ∧ ovenAfter (ran .closeRecord (meeting false rebased))
          = some { rebased with p16 := 300000, a16 := 17560480, former := some ⟨16960480, 17560480⟩ }
      ∧ ovenAfter (ran .closeRecord (meeting false { rebased with a16 := 17280561 }))
          = some { rebased with p16 := 300000, a16 := 17280561 } := by decide

/-- 10.8: the first NEXT finds slot 0; the second frees it with GONE and finds slot 2. -/
theorem test_NextWalksTheTable_closed :
    let s := asks 0x44 [] (session 64 Staged.empty)
    s.table.slots.length = 64
      ∧ (ran .nextRecord s).link.result.take 4 = [0x00, 0x0E, 0x00, 0x02]
      ∧ (ran .nextRecord s).cursor.map (·.slot) = some 0
      ∧ (ran .nextRecord (asks 0x44 [])).link.result = [0x04, 0x0E] := by decide

theorem test_NextWalksTheTable_gone :
    let s := asks 0x44 [] (session 0 Staged.empty)
    let gone := { s with table := s.table.put 0 { steady7 with state := .retired, held := true } }
    (∀ y ∈ gone.table.records, y.2.state ≠ .retired → (2 + 63 - 0) % 64 ≤ (y.1 + 63 - 0) % 64)
      ∧ (ran .nextRecord gone).link.result.take 4 = [0x00, 0x05, 0x00, 0x25]
      ∧ (ran .nextRecord gone).table.slot 0 = ⟨3, none⟩
      ∧ (ran .nextRecord (asks 0x44 [] (session 9 Staged.empty))).link.result.take 4
          = [0x00, 0x00, 0x00, 0x02] := by decide

/-- R187: NEXT on a held live record commits it and goes on, reopens it where no other is live, and is INVALID with a
commit that is refused; with nothing live left, EMPTY with GONE. -/
theorem test_NextWalksTheTable_live :
    let s (held : Nat) (g : Staged) := ran .nextRecord (asks 0x44 [] (session held g))
    let alone (r : Record) := ran .nextRecord (asks 0x44 [] { onTable (holding 64 [(2, 5, r)]) with
      cursor := some { slot := 2, gen := 5, staged := { Staged.empty with spanHigh := some 100 } } })
    (s 2 { Staged.empty with spanHigh := some 100 }).link.result.take 4 = [0x00, 0x80, 0x00, 0x91]
      ∧ (s 2 { Staged.empty with spanHigh := some 100 }).table.record 2
          = some { heard2 with span := ⟨60, 100⟩ }
      ∧ (s 2 { Staged.empty with spanLow := some 70, spanHigh := some 65 }).link.result = [0x01]
      ∧ (alone { heard2 with held := true }).link.result.take 4 = [0x00, 0x80, 0x00, 0x25]
      ∧ (alone { heard2 with held := true }).table.record 2
          = some { heard2 with held := true, span := ⟨60, 100⟩ }
      ∧ (alone { heard2 with held := true, state := .retired }).link.result = [0x04, 0x05] := by decide

/-- 10.8: the sweep for ovens of at most 20,010 µs. -/
theorem test_SweepExaminesSlots_starts :
    (ran .sweep (asks 0x50 [0x01, 0x06, 0x05, 0x01, 0x4E, 0x2A, 0, 9])).sweep =
        some { sweeping with next := 0, examined := 0, clamped := true }
      ∧ (ran .sweep (asks 0x50 [0x00, 0x88, 0x01, 0, 0xFF, 0xFF, 63, 0])).sweep.map
          (fun w => (w.maximum, w.filter.states)) = some (1, [])
      ∧ (ran .sweep (asks 0x50 [0x01, 0x06, 0x05, 0x01, 0x4E, 0x2A, 64, 8])).link.result = [0x01]
      ∧ (ran .sweep (asks 0x50 [0x04, 0x06, 0x05, 0x01, 0x4E, 0x2A, 0, 8])).link.result = [0x01] := by
  decide

/-- R193: the fields that a record has, and the wildcard. -/
theorem test_SweepExaminesSlots_matches :
    let f : SweepFilter := { sweeping.filter with kind := none }
    f.Matches heard2 ∧ ¬ f.Matches neighbour4 ∧ { f with key := 0xFFFF }.Matches neighbour4
      ∧ { f with field := .channel, cond := .equal, key := 9 }.Matches neighbour4
      ∧ ¬ { f with kind := some .steady, key := 0xFFFF }.Matches neighbour4 := by
  simp [SweepFilter.Matches, Record.HasValue, sweeping, heard2, ovenHit2, oven2, neighbour4, Record.kind,
    Part.kind]

theorem test_SweepExaminesSlots_examines :
    let s (w : Sweep) := asks 0x50 [] { session 64 Staged.empty with sweep := some w }
    (ran .sweepExamination (s sweeping)).link.result =
        [0x00, 1, 0x00, 0x25] ++ List.replicate 14 0xFF ++ [0xFF]
      ∧ ((ran .sweepExamination (s { sweeping with examined := 5 })).sweep.map
          (fun w => (w.next, w.examined, w.found))) = some (3, 6, [(2, 5)])
      ∧ (ran .sweepExamination (s { sweeping with examined := 5, maximum := 1 })).link.result =
          [0x00, 1, 0x00, 0x25] ++ List.replicate 14 0xFF ++ [3]
      ∧ (ran .sweepExamination (s { sweeping with filter := { sweeping.filter with key := 20000 } })
          ).link.result = [0x00, 0] ++ List.replicate 16 0xFF ++ [0xFF] := by decide

/-! ### The laws: states that meet them, with a command in front -/

/-- A state that meets every law, and answers a next state. -/
def lawful : State := { State.reset with pending := [.referenceReturn] }

theorem test_laws_are_met :
    lawful.OvenLaw ∧ lawful.PinLaw ∧ lawful.HeldLaw ∧ lawful.QueueLaw
      ∧ lawful.AttentionLaw ∧ lawful.ChainLaw ∧ lawful.ClockLaw
      ∧ (∃ t, step lawful = .next t ∧ t.pending = []) := by
  refine ⟨by decide, by decide, by decide, by decide, by decide, by decide, by decide, _, rfl, rfl⟩

theorem test_more_laws_are_met :
    lawful.SpanLaw ∧ lawful.AirtimeLaw ∧ lawful.RangeLaw ∧ lawful.LinkLaw := by
  refine ⟨by decide, by decide, by decide, by decide⟩

/-- The laws of the chains and of the clock with a chain in DWELL and an automatic move handed over. -/
theorem test_chain_laws_are_met :
    let s := radios (chainIn .dwell (some 6) none) { readyOn 1 with handed := some 3, origin := .advisor }
      (atTime 50000 State.reset)
    s.ChainLaw ∧ s.ClockLaw ∧ s.radio.chainA.MovedTo 6 ∧ s.radio.chainB.MovedTo 1
      ∧ ¬ (radios (readyOn 12) (readyOn 1)).ChainLaw := by
  refine ⟨by decide, by decide, by decide, by decide, by decide⟩

/-- A state with a pending CLOCK_FALLBACK and an occupied slot, and a command that keeps both. -/
theorem test_HandlesAndClockNoticeEndure :
    let s := (onTable (holding 1 [(0, 3, oven2)])).raise .clockFallback .none .none
    s.table.record 0 = some oven2 ∧ (∃ e ∈ s.notices.entries, e.kind = .clockFallback)
      ∧ (ran .referenceReturn s).table = s.table
      ∧ (ran .referenceReturn s).notices = s.notices := by decide

/-- A request that stands in EXECUTION is the next act; a state in which a microsecond may pass. -/
theorem test_StatesChangeByTheirCauses_idle :
    let s := asks 0x01 []
    s.Unserved ∧ s.pending = [] ∧ requestRow 0x01 = some ⟨0x01, 0, .readStatus⟩
      ∧ (∃ t, step s = .next t ∧ t.link.phase = .result) ∧ ¬ s.Reaches 1
      ∧ State.reset.Reaches 1 ∧ State.reset.acts = [.microsecond] := by
  refine ⟨by decide, rfl, by decide, ?_, not_reaches_of (by decide) (by decide),
    reaches_of (by decide) (by decide), by decide⟩
  have h : (asks 0x01 []).nextAct = some (.command .readStatus) := by
    have : (asks 0x01 []).acts = [.command .readStatus] := by decide
    rw [State.nextAct, this]; simp [Nat.mod_one]
  exact ⟨_, by simp only [step, show (asks 0x01 []).pending = [] from rfl, h]; rfl, rfl⟩

theorem test_StatesChangeByTheirCauses :
    let s := radios (chainIn .retuning (some 6) (some 11)) (readyOn 1)
    ((ran (.lockAsserted .A) s).chain .A).state ≠ (s.chain .A).state
      ∧ (ran .referenceLoss (clocked .reference .qualified)).timebase.clock
          ≠ (clocked .reference .qualified).timebase.clock := by decide

end Sys2Proof.Tests
end

section
/-! The confirmation check (R15, R16): the model's test of a record is the condition of its kind, its notice is
that of its kind, and the check on an occupied slot depends on that test and the record's state alone. -/

namespace Sys2Proof.Machine

/-! ### The condition of the kind (R15) -/

/-- The conditions of R15, an alternative for each kind. -/
def Params.KindConfirms (p : Params) (r : Record) : Prop :=
  (∃ o, r.part = .oven o ∧ o.periodKnown = true ∧ p.ovenConfirm ≤ r.hits)
    ∨ (r.kind = .neighbour ∧ p.neighbourConfirm ≤ r.hits)
    ∨ (r.kind = .steady ∧ p.steadyConfirm ≤ r.hits)

/-- The model's test decides the conditions of R15: a part satisfies none but its own kind's. -/
theorem Params.confirms_iff {p : Params} {r : Record} : p.confirms r = true ↔ p.KindConfirms r := by
  unfold Params.confirms Params.KindConfirms Record.kind
  cases r.part with
  | oven o => simp [Part.kind]
  | neighbour tag channel air => simp [Part.kind]
  | steady air => simp [Part.kind]

/-! ### The check (R16) -/

/-- An OVEN has a notice of its own; the other two kinds share one. -/
theorem Kind.confirmedNotice_eq (k : Kind) :
    k.confirmedNotice = if k = .oven then .ovenConfirmed else .neighbourConfirmed := by
  cases k <;> rfl

/-- What the check answers for an occupied slot. -/
theorem State.confirm_of_record {s : State} {i : Nat} {r : Record} (hr : s.table.record i = some r) :
    s.confirm i = if r.state = .candidate ∧ s.params.confirms r = true then
      (s.putRecord i r.confirmed).raise r.kind.confirmedNotice (s.table.subject i) .none
    else s := by
  simp only [State.confirm, hr]

/-- A candidate that satisfies confirmation is confirmed, with its kind's notice under its handle. -/
theorem State.confirm_of_kindConfirms {s : State} {i : Nat} {r : Record}
    (hr : s.table.record i = some r) (hc : r.state = .candidate) (hk : s.params.KindConfirms r) :
    s.confirm i =
      (s.putRecord i r.confirmed).raise r.kind.confirmedNotice (s.table.subject i) .none := by
  rw [State.confirm_of_record hr, if_pos ⟨hc, Params.confirms_iff.2 hk⟩]

/-- A record past CANDIDATE, and a candidate short of its kind's condition, are left with the whole state. -/
theorem State.confirm_eq_self {s : State} {i : Nat} {r : Record} (hr : s.table.record i = some r)
    (h : r.state ≠ .candidate ∨ ¬ s.params.KindConfirms r) : s.confirm i = s := by
  rw [State.confirm_of_record hr, if_neg]
  rintro ⟨hc, hk⟩
  exact h.elim (· hc) (· (Params.confirms_iff.1 hk))

/-- Settles O14: the test is the condition of R15, and the two sides of the check are R16's outcomes. -/
theorem confirmationFollowsTheKind : Obligations.ConfirmationFollowsTheKind := by
  intro s i r hr
  refine ⟨fun hc hk => ?_, State.confirm_eq_self hr⟩
  rw [← Kind.confirmedNotice_eq]
  exact State.confirm_of_kindConfirms hr hc hk

end Sys2Proof.Machine
end

section
/-! The phase match test (R54): rounding with ties toward the smaller integer leaves a remainder above minus half a
period and at or below half a period, and a remainder that small is not touched by the modulo of sub-µs time. -/

namespace Sys2Proof.Machine

/-- Step 2 of R54: what `roundDivDown` leaves over lies above minus half the divisor and at or below half of it. -/
theorem roundDivDown_remainder (a : Int) {b : Int} (hb : 0 < b) :
    -b < 2 * (a - roundDivDown a b * b) ∧ 2 * (a - roundDivDown a b * b) ≤ b := by
  have below := Int.mul_ediv_self_le (x := b - 2 * a) (k := 2 * b) (by omega)
  have above := Int.lt_mul_ediv_self_add (x := b - 2 * a) (k := 2 * b) (by omega)
  have twice : 2 * (a - roundDivDown a b * b) = 2 * a + 2 * b * ((b - 2 * a) / (2 * b)) := by
    rw [roundDivDown]; ring
  rw [twice]
  exact ⟨by linarith, by linarith⟩

/-- The signed distance to a time moved by `x` falls by `x`, where the result lies within the signed range. -/
theorem diff16_add_ofInt {t a : Time16} {x : Int} (lo : -(2 ^ 36) ≤ (diff16 t a - x) * 2)
    (hi : (diff16 t a - x) * 2 < 2 ^ 36) : diff16 t (a + BitVec.ofInt 36 x) = diff16 t a - x := by
  calc diff16 t (a + BitVec.ofInt 36 x)
      = (t - a - BitVec.ofInt 36 x).toInt := by rw [diff16, sub_add_eq_sub_sub]
    _ = (diff16 t a - x).bmod (2 ^ 36) := by
        rw [BitVec.toInt_sub, BitVec.toInt_ofInt, Int.sub_bmod_bmod, diff16]
    _ = diff16 t a - x := Int.bmod_eq_of_le_mul_two (by simpa using lo) (by simpa using hi)

namespace OvenPart

/-- The predicted start that the test names is the one of its `k` (R54 step 3). -/
theorem phaseMatch_p16 (o : OvenPart) (s16 : Time16) :
    (o.phaseMatch s16).p16 = o.a16 + BitVec.ofInt 36 ((o.phaseMatch s16).k * o.p16) := rfl

/-- R54's bounds on the distance, before it is taken modulo the sub-µs time. -/
theorem phaseMatch_k_nearest (o : OvenPart) (s16 : Time16) (hp : 0 < o.p16) :
    -(o.p16 : Int) < 2 * (diff16 s16 o.a16 - (o.phaseMatch s16).k * o.p16)
      ∧ 2 * (diff16 s16 o.a16 - (o.phaseMatch s16).k * o.p16) ≤ o.p16 :=
  roundDivDown_remainder _ (Int.natCast_pos.2 hp)

/-- The error is the true distance from the predicted start: for a period within the sub-µs range its half is too
small to wrap (R54 step 4). -/
theorem phaseMatch_e16 (o : OvenPart) (s16 : Time16) (hp : 0 < o.p16) (hr : o.p16 < 2 ^ 36) :
    (o.phaseMatch s16).e16 = diff16 s16 o.a16 - (o.phaseMatch s16).k * o.p16 := by
  obtain ⟨lo, hi⟩ := o.phaseMatch_k_nearest s16 hp
  exact diff16_add_ofInt (x := (o.phaseMatch s16).k * o.p16) (by omega) (by omega)

end OvenPart

/-- The verdict of R54 step 5. -/
theorem PhaseMatch.passes_iff (m : PhaseMatch) (tolerance : Nat) :
    m.passes tolerance = true ↔ (m.e16.natAbs : Int) ≤ tolerance * 16 := by
  rw [PhaseMatch.passes, decide_eq_true_iff]
  omega

/-- Settles O12: the rounding bounds the distance, and so the error, which is that distance unwrapped. -/
theorem phaseMatchNamesNearestStart : Obligations.PhaseMatchNamesNearestStart := by
  intro o s16 hlo hhi
  have hp : 0 < o.p16 := by omega
  have he := o.phaseMatch_e16 s16 hp (by omega)
  obtain ⟨above, below⟩ := o.phaseMatch_k_nearest s16 hp
  rw [← he] at above below
  exact ⟨o.phaseMatch_p16 s16, he, above, below, PhaseMatch.passes_iff _⟩

end Sys2Proof.Machine
end

section
/-! The chain code of a window query (R84, R207): the low two bits of the control byte name no chain exactly where they
read 2 or 3, and a query that names none is refused before the queue is looked at. -/

namespace Sys2Proof.Machine

/-! ### The chain code (R207) -/

/-- The chain bytes are 0 and 1 (R207). -/
theorem chainOf_eq_none_iff {b : Byte} : chainOf b = none ↔ 2 ≤ b.toNat := by
  unfold chainOf
  split
  · next hA => simp [hA]
  · next hA =>
    split
    · next hB => simp [hB]
    · next hB => simp only [true_iff]; bv_omega

/-- The mask of the chain code takes the byte modulo 4. -/
theorem toNat_chainCode (b : Byte) : (b &&& 0x03).toNat = b.toNat % 4 := by
  rw [BitVec.toNat_and]
  exact Nat.and_two_pow_sub_one_eq_mod b.toNat 2

/-- The codes 0b10 and 0b11 name no chain, whatever the other bits of the control byte (R207). -/
theorem windowAskOf_chain_eq_none_iff {control : Byte} {offset duration horizonLow : Nat} :
    (windowAskOf control offset duration horizonLow).chain = none ↔ 2 ≤ control.toNat % 4 := by
  rw [← toNat_chainCode, ← chainOf_eq_none_iff]
  rfl

/-! ### The arrival (R84) -/

theorem exec_queryArrival (frame : List Byte) (s : State) :
    exec (.queryArrival frame) s = execQueryArrival frame s := rfl

/-- A query without a chain leaves its REFUSED answer and touches nothing else (R84). -/
theorem execQueryArrival_of_no_chain {frame : List Byte} {tag : Byte} {ask : WindowAsk} {s : State}
    (hq : queryOf frame = some (tag, ask)) (hc : ask.chain = none) :
    execQueryArrival frame s = .next { s with predictor := s.predictor.leave (refusedAnswer tag) } := by
  simp only [execQueryArrival, hq, hc]

/-- Settles O29: the code names no chain, so the arrival answers before it compares the queue with its capacity. -/
theorem queryOfNoChainRefused : Obligations.QueryOfNoChainRefused := by
  intro s tag b o1 o0 d1 d0 h1 h0 more hb
  rw [exec_queryArrival]
  exact execQueryArrival_of_no_chain rfl (windowAskOf_chain_eq_none_iff.2 hb)

end Sys2Proof.Machine
end

section
/-! The best channel (R137): the choice scans the eligible channels in ascending number and keeps the first that none
betters, so what the model's order by cost and distance leaves equal, the channel number decides. -/

namespace Sys2Proof.Machine

/-! ### The channels that qualify -/

theorem Domain.permits_iff {d : Domain} {ch : Nat} : d.permits ch = true ↔ 1 ≤ ch ∧ ch ≤ d.highest := by
  simp [Domain.permits]

theorem Domain.highest_le (d : Domain) : d.highest ≤ 14 := by cases d <;> decide

theorem ChainRec.uses_eq_false_iff {x : ChainRec} {ch : Nat} :
    x.uses ch = false ↔ x.present ≠ some ch ∧ x.target ≠ some ch := by
  simp [ChainRec.uses]

theorem mem_allChannels {ch : Nat} : ch ∈ allChannels ↔ 1 ≤ ch ∧ ch ≤ 14 := by
  rw [allChannels, List.mem_range'_1]
  omega

/-- The two conditions of R137; a permitted channel is one of the fourteen. -/
theorem State.mem_eligible {s : State} {c : Chain} {ch : Nat} :
    ch ∈ s.eligible c ↔ 1 ≤ ch ∧ ch ≤ s.radio.domain.highest
      ∧ (s.chain (otherChain c)).present ≠ some ch ∧ (s.chain (otherChain c)).target ≠ some ch := by
  have := s.radio.domain.highest_le
  simp only [State.eligible, List.mem_filter, mem_allChannels, Bool.and_eq_true, Bool.not_eq_true',
    Domain.permits_iff, ChainRec.uses_eq_false_iff]
  constructor
  · rintro ⟨-, ⟨lo, hi⟩, unused⟩
    exact ⟨lo, hi, unused⟩
  · rintro ⟨lo, hi, unused⟩
    exact ⟨⟨lo, by omega⟩, ⟨lo, hi⟩, unused⟩

/-- The candidates stand in ascending number. -/
theorem State.eligible_ascending (s : State) (c : Chain) : (s.eligible c).Pairwise (· < ·) :=
  (show allChannels.Pairwise (· < ·) from List.pairwise_lt_range').filter _

/-! ### The order of the candidates -/

/-- Distance is the difference of channel numbers (R137). -/
theorem channelDistance_eq_natAbs (a b : Nat) : channelDistance a b = ((a : Int) - b).natAbs := by
  rw [channelDistance]
  omega

namespace Advisor

variable {a : Advisor} {present x y z : Nat}

/-- Lower cost, then smaller distance (R137). -/
theorem betterChannel_iff : a.betterChannel present x y = true ↔
    a.costAt x < a.costAt y
      ∨ (a.costAt x = a.costAt y ∧ channelDistance x present < channelDistance y present) := by
  simp [betterChannel]

theorem betterChannel_eq_false_iff : a.betterChannel present x y = false ↔
    a.costAt y < a.costAt x
      ∨ (a.costAt y = a.costAt x ∧ channelDistance y present ≤ channelDistance x present) := by
  rw [← Bool.not_eq_true, betterChannel_iff]
  omega

theorem betterChannel_asymm (h : a.betterChannel present x y = true) :
    a.betterChannel present y x = false := by
  rw [betterChannel_iff] at h
  rw [betterChannel_eq_false_iff]
  omega

theorem betterChannel_carry (hxy : a.betterChannel present x y = false)
    (hyz : a.betterChannel present y z = false) : a.betterChannel present x z = false := by
  rw [betterChannel_eq_false_iff] at hxy hyz ⊢
  omega

end Advisor

/-! ### The choice -/

/-- Where a channel is eligible, the best channel is better than every candidate below it, and no candidate above it
is better. -/
theorem State.bestChannel_split {s : State} {c : Chain} {p : Nat} (hp : p ∈ s.eligible c) :
    ∃ below above, s.eligible c = below ++ s.bestChannel c p :: above
      ∧ (∀ y ∈ below, s.advisor.betterChannel p (s.bestChannel c p) y = true)
      ∧ ∀ y ∈ above, s.advisor.betterChannel p y (s.bestChannel c p) = false := by
  obtain ⟨z, hz⟩ : ∃ z, firstBest (s.advisor.betterChannel p) (s.eligible c) = some z :=
    Option.ne_none_iff_exists'.1 (mt firstBest_eq_none.1 (List.ne_nil_of_mem hp))
  have hbest : s.bestChannel c p = z := by rw [State.bestChannel, hz, Option.getD_some]
  rw [hbest]
  exact firstBest_split (better := s.advisor.betterChannel p) (fun _ _ => Advisor.betterChannel_asymm)
    (fun _ _ _ => Advisor.betterChannel_carry) hz

theorem State.bestChannel_mem_eligible {s : State} {c : Chain} {p : Nat} (hp : p ∈ s.eligible c) :
    s.bestChannel c p ∈ s.eligible c := by
  obtain ⟨below, above, split, -, -⟩ := State.bestChannel_split hp
  simp [split]

/-- Against any other candidate the best channel is better, or it is not worse and its number is lower. -/
theorem State.bestChannel_cases {s : State} {c : Chain} {p ch : Nat} (hp : p ∈ s.eligible c)
    (hch : ch ∈ s.eligible c) : s.advisor.betterChannel p (s.bestChannel c p) ch = true
      ∨ (s.advisor.betterChannel p ch (s.bestChannel c p) = false ∧ s.bestChannel c p ≤ ch) := by
  obtain ⟨below, above, split, better, notWorse⟩ := State.bestChannel_split hp
  have ascending := s.eligible_ascending c
  rw [split, List.pairwise_append, List.pairwise_cons] at ascending
  obtain ⟨-, ⟨lower, -⟩, -⟩ := ascending
  rw [split, List.mem_append, List.mem_cons] at hch
  rcases hch with hBelow | rfl | hAbove
  · exact .inl (better ch hBelow)
  · exact .inr ⟨Advisor.betterChannel_eq_false_iff.2 (.inr ⟨rfl, le_rfl⟩), le_rfl⟩
  · exact .inr ⟨notWorse ch hAbove, (lower ch hAbove).le⟩

/-- Settles O19: the candidates are the channels that qualify, and the choice among them is by cost, distance and
number in turn. -/
theorem bestChannelIsCheapestNearestLowest : Obligations.BestChannelIsCheapestNearestLowest := by
  intro s c p qualifies cost far hp
  have hp' : p ∈ s.eligible c := State.mem_eligible.2 hp
  refine ⟨State.mem_eligible.1 (State.bestChannel_mem_eligible hp'), fun ch hch => ?_⟩
  have choice := State.bestChannel_cases hp' (State.mem_eligible.2 hch)
  simp only [Advisor.betterChannel_iff, Advisor.betterChannel_eq_false_iff, channelDistance_eq_natAbs] at choice
  simp only [cost, far]
  omega

end Sys2Proof.Machine
end

section
/-! The restoring of the reference (R154): the request switches the clock in FALLBACK with a qualified reference alone;
short of that it is refused in FALLBACK, and outside FALLBACK it answers OK whatever the qualification. -/

namespace Sys2Proof.Machine

theorem exec_restoreClock (s : State) : exec .restoreClock s = execRestoreClock s := rfl

section RestoreClock
variable {s : State} {params : List Byte}

/-- The one row that switches the clock. -/
theorem execRestoreClock_of_qualified (hx : s.Executing 0x15 params) (hc : s.timebase.clock = .fallback)
    (hq : s.timebase.qual = .qualified) : execRestoreClock s = .next
      (State.answer { s with timebase := { s.timebase with clock := .reference } } .ok) := by
  simp only [execRestoreClock, hx.request, hc, hq]

/-- An absent reference and one still qualifying are refused alike. -/
theorem execRestoreClock_of_not_qualified (hx : s.Executing 0x15 params)
    (hc : s.timebase.clock = .fallback) (hq : s.timebase.qual ≠ .qualified) :
    execRestoreClock s = .next (s.answer .noReference) := by
  cases hs : s.timebase.qual with
  | idle => simp only [execRestoreClock, hx.request, hc, hs]
  | qualifying e => simp only [execRestoreClock, hx.request, hc, hs]
  | qualified => exact absurd hs hq

/-- Outside FALLBACK there is nothing to restore. -/
theorem execRestoreClock_of_not_fallback (hx : s.Executing 0x15 params)
    (hc : s.timebase.clock ≠ .fallback) : execRestoreClock s = .next (s.answer .ok) := by
  cases hs : s.timebase.clock with
  | fallback => exact absurd hs hc
  | internalStart => simp only [execRestoreClock, hx.request, hs]
  | reference => simp only [execRestoreClock, hx.request, hs]

end RestoreClock

/-- Settles O26: the four lines of R154's table are the three outcomes, the last two lines sharing one. -/
theorem restoreClockByState : Obligations.RestoreClockByState := by
  intro s hx
  rw [exec_restoreClock]
  refine ⟨execRestoreClock_of_qualified hx, execRestoreClock_of_not_qualified hx, fun hc => ?_, fun hc _ => ?_⟩
  · exact execRestoreClock_of_not_fallback hx (by simp [hc])
  · exact execRestoreClock_of_not_fallback hx (by simp [hc])

end Sys2Proof.Machine
end

section
/-! SET PARAMETER (R175): the table of ranges is read by id, a parameter's place among the fourteen is its id less
one, and of the notices a new value touches the ATTENTION line alone, and that for ATTENTION_THRESHOLD only. -/

namespace Sys2Proof.Machine

/-! ### The ranges and the values by id (R174) -/

/-- The ranges of R174, in the order of the ids. -/
def paramRanges : List (Nat × Nat) :=
  [(500, 10000), (0, 200), (0, 1000), (250, 4000), (2, 8), (1, 8), (1, 8), (2, 50), (10, 255), (10, 255), (0, 255),
    (1, 15), (0, 255), (0, 7)]

/-- The parameters, in the order of their ids. -/
def Params.values (p : Params) : List Nat :=
  [p.lockTimeout, p.dwellTime, p.guardTime, p.ovenTolerance, p.ovenConfirm, p.neighbourConfirm, p.steadyConfirm,
    p.candidateLimit, p.ovenRetire, p.neighbourRetire, p.adviceMargin, p.advicePersist, p.autoHoldoff,
    p.attentionThreshold]

/-- Ids count from 1, so the range of an id is the one before its place. -/
theorem paramRange_eq_getElem? {id : Byte} (h : 1 ≤ id.toNat) :
    paramRange id = paramRanges[id.toNat - 1]? := by
  unfold paramRange
  generalize id.toNat = n at h ⊢
  match n, h with
  | 1, _ | 2, _ | 3, _ | 4, _ | 5, _ | 6, _ | 7, _ | 8, _ | 9, _ | 10, _ | 11, _ | 12, _ | 13, _ | 14, _ => rfl
  | _ + 15, _ => rfl

/-- The ids of the table are 1 to 14. -/
theorem paramRange_eq_none {id : Byte} (h : id.toNat = 0 ∨ 14 < id.toNat) : paramRange id = none := by
  rcases h with h | h
  · rw [paramRange, h]; rfl
  · rw [paramRange_eq_getElem? (by omega), List.getElem?_eq_none]
    show 14 ≤ id.toNat - 1
    omega

/-- A written parameter is replaced in its place, and no other. -/
theorem Params.values_write {p : Params} {id : Byte} {v : Nat} (h : 1 ≤ id.toNat) :
    (p.write id v).values = p.values.set (id.toNat - 1) v := by
  unfold Params.write
  generalize id.toNat = n at h ⊢
  match n, h with
  | 1, _ | 2, _ | 3, _ | 4, _ | 5, _ | 6, _ | 7, _ | 8, _ | 9, _ | 10, _ | 11, _ | 12, _ | 13, _ | 14, _ => rfl
  | _ + 15, _ => rfl

theorem thresholdId_iff {id : Byte} : id = thresholdId ↔ id.toNat = 14 := BitVec.toNat_inj.symm

@[simp] theorem Params.attentionThreshold_write_thresholdId (p : Params) (v : Nat) :
    (p.write thresholdId v).attentionThreshold = v := rfl

theorem valueOf_pair (hi lo : Byte) : valueOf [hi, lo] = hi.toNat * 256 + lo.toNat := by
  simp [valueOf]

/-! ### The judgement of ATTENTION (R203) -/

/-- The line is asserted exactly where a pending entry calls for it. -/
theorem Notices.judgement_iff {n : Notices} {threshold : Nat} :
    n.judgement threshold = true ↔ n.Calls threshold := by
  simp [Notices.judgement, Notices.Calls]

/-- After a judgement the line says whether an entry calls for it. -/
theorem State.judge_attention_iff {s : State} :
    s.judge.notices.attention = true ↔ s.notices.Calls s.params.attentionThreshold :=
  Notices.judgement_iff

/-! ### The parameter takes its value -/

section SetParam
variable (s : State) (id : Byte) (v : Nat)

@[simp] theorem State.params_setParam : (s.setParam id v).params = s.params.write id v := by
  unfold State.setParam
  split <;> rfl

@[simp] theorem State.link_setParam : (s.setParam id v).link = s.link := by
  unfold State.setParam
  split <;> rfl

theorem State.setParam_of_ne_threshold {id : Byte} (h : id ≠ thresholdId) :
    s.setParam id v = { s with params := s.params.write id v } := by
  rw [State.setParam, if_neg h]

theorem State.setParam_threshold : s.setParam thresholdId v =
    State.judge { s with params := s.params.write thresholdId v } := by
  rw [State.setParam, if_pos rfl]

/-- A new parameter changes the parameters, and of the notices the ATTENTION line alone. -/
theorem State.setParam_frame : s.setParam id v = { s with
    params := s.params.write id v
    notices := { s.notices with attention := (s.setParam id v).notices.attention } } := by
  unfold State.setParam
  split <;> rfl

/-- A new threshold has the line judged against it. -/
theorem State.setParam_threshold_attention_iff :
    (s.setParam thresholdId v).notices.attention = true ↔ s.notices.Calls v := by
  rw [State.setParam_threshold]
  exact State.judge_attention_iff

end SetParam

/-! ### The request (R175) -/

theorem exec_setParameter (s : State) : exec .setParameter s = execSetParameter s := rfl

section SetParameter
variable {s : State} {id hi lo : Byte}

/-- An id outside the table changes no parameter. -/
theorem execSetParameter_of_no_range (hx : s.Executing 0x11 [id, hi, lo]) (hr : paramRange id = none) :
    execSetParameter s = .next (s.finish [0x01]) := by
  simp only [execSetParameter, hx.request, hr]
  rfl

/-- The value of two bytes is clamped to the range of its id, held and returned. -/
theorem execSetParameter_of_range {range : Nat × Nat} (hx : s.Executing 0x11 [id, hi, lo])
    (hr : paramRange id = some range) :
    let v := hi.toNat * 256 + lo.toNat
    let held := max range.1 (min range.2 v)
    execSetParameter s = .next
      ((s.setParam id held).finish ((if held = v then 0x00 else 0x80) :: bytesOf 2 held)) := by
  simp only [execSetParameter, hx.request, hr, valueOf_pair, clampNat, State.answerOk_eq, decide_eq_true_eq, ne_eq,
    ite_not]

end SetParameter

/-- Settles O40: the id picks the range and the place, and the rest is what the held value changes. -/
theorem setParameterClampsAndHolds : Obligations.SetParameterClampsAndHolds := by
  intro s id hi lo hx v ranges values
  rw [exec_setParameter]
  refine ⟨fun h => execSetParameter_of_no_range hx (paramRange_eq_none h), fun range hid hr => ?_⟩
  intro held
  have hrange : paramRange id = some range := (paramRange_eq_getElem? hid).trans hr
  have frame := s.setParam_frame id held
  refine ⟨_, execSetParameter_of_range hx hrange, ?_, ?_, ?_, ?_, ?_, ?_⟩
  · exact (congrArg Params.values (s.params_setParam id held)).trans (Params.values_write hid)
  · rw [State.link_finish, State.link_setParam]
  · rw [State.notices_finish]
    exact congrArg State.notices frame
  · intro h
    rw [State.notices_finish, State.setParam_of_ne_threshold s held (mt thresholdId_iff.1 h)]
  · intro h
    rw [State.notices_finish, thresholdId_iff.2 h]
    exact s.setParam_threshold_attention_iff held
  · rw [frame]
    rfl

end Sys2Proof.Machine
end

section
/-! The requests on notices: SET NOTICE LEVEL (R177) sets the level of the one kind its code names; FETCH NOTICE (R204)
takes the entry that is taken before all older ones and that no newer one is taken before, so erasing it leaves the
rest of the list in its order. -/

namespace Sys2Proof.Machine

/-! ### Kinds, codes and levels (R177, R198) -/

theorem mem_allNoticeKinds (k : NoticeKind) : k ∈ allNoticeKinds := by cases k <;> decide

theorem noticeKindOf_eq_find? (b : Byte) :
    noticeKindOf b = allNoticeKinds.find? (fun k => k.code == b.toNat) := rfl

/-- A code is its kind's place in the order of R198, so it names one kind. -/
theorem NoticeKind.code_injective : Function.Injective NoticeKind.code := by
  intro k k' h
  have position (x : NoticeKind) : allNoticeKinds[x.code - 1]? = some x := by cases x <;> rfl
  exact Option.some_injective _ ((position k).symm.trans (h ▸ position k'))

/-- A kind's code is read back as the kind. -/
theorem noticeKindOf_of_code {b : Byte} {k : NoticeKind} (h : b.toNat = k.code) : noticeKindOf b = some k := by
  rw [noticeKindOf_eq_find?]
  cases found : allNoticeKinds.find? (fun x => x.code == b.toNat) with
  | none => simpa [h] using List.find?_eq_none.1 found k (mem_allNoticeKinds k)
  | some x =>
    have : x.code = b.toNat := by simpa using List.find?_some found
    rw [NoticeKind.code_injective (this.trans h)]

theorem NoticeKind.code_range (k : NoticeKind) : 1 ≤ k.code ∧ k.code ≤ 11 := by cases k <;> decide

/-- The codes are 1 to 11, and no other byte names a kind. -/
theorem noticeKindOf_eq_none {b : Byte} (h : b.toNat = 0 ∨ 11 < b.toNat) : noticeKindOf b = none := by
  rw [noticeKindOf_eq_find?, List.find?_eq_none]
  intro k _
  have := k.code_range
  rw [beq_iff_eq]
  omega

/-- A level is clamped to 7, and CLOCK_FALLBACK's is 7. -/
theorem NoticeKind.heldLevel_eq (k : NoticeKind) (v : Nat) :
    k.heldLevel v = if k = .clockFallback then 7 else min 7 v := by
  cases k <;> simp [NoticeKind.heldLevel, clampNat]

/-- A set level is the level of its kind alone, and CLOCK_FALLBACK's cannot be set. -/
theorem Levels.level_setLevel (l : Levels) (k k' : NoticeKind) (v : Nat) :
    (l.setLevel k v).level k' = if k' = k ∧ k ≠ .clockFallback then v else l.level k' := by
  cases k <;> cases k' <;> rfl

/-- The kind that a request names holds its level, and every other kind keeps its own. -/
theorem Levels.level_setLevel_heldLevel (l : Levels) (k k' : NoticeKind) (v : Nat) :
    (l.setLevel k (k.heldLevel v)).level k' = if k' = k then k.heldLevel v else l.level k' := by
  rw [Levels.level_setLevel]
  by_cases hk : k = .clockFallback
  · subst hk
    by_cases hk' : k' = .clockFallback
    · subst hk'; rfl
    · simp [hk']
  · simp [hk]

/-! ### SET NOTICE LEVEL -/

theorem exec_setNoticeLevel (s : State) : exec .setNoticeLevel s = execSetNoticeLevel s := rfl

section SetNoticeLevel
variable {s : State} {b v : Byte}

/-- A code that names no kind changes no level. -/
theorem execSetNoticeLevel_of_no_kind (hx : s.Executing 0x12 [b, v]) (hk : noticeKindOf b = none) :
    execSetNoticeLevel s = .next (s.finish [0x01]) := by
  simp only [execSetNoticeLevel, hx.request, hk]
  rfl

/-- A named kind holds its level, attention is judged again, and the level held is returned. -/
theorem execSetNoticeLevel_of_kind {k : NoticeKind} (hx : s.Executing 0x12 [b, v])
    (hk : noticeKindOf b = some k) :
    let held := k.heldLevel v.toNat
    execSetNoticeLevel s = .next (State.finish
      (State.judge { s with notices := { s.notices with levels := s.notices.levels.setLevel k held } })
      [if held = v.toNat then 0x00 else 0x80, byteOf held]) := by
  simp only [execSetNoticeLevel, hx.request, hk, State.answerOk_eq, decide_eq_true_eq, ne_eq, ite_not]

end SetNoticeLevel

/-! ### The levels at the resets (R206) -/

/-- RESET keeps the levels. -/
theorem exec_reset_levels {s : State} (hx : s.Executing 0x02 []) :
    ∃ t, exec .reset s = .next t ∧ t.notices.levels = s.notices.levels := by
  refine ⟨s.softReset.answer .ok, ?_, rfl⟩
  show execReset s = _
  simp only [execReset, hx.request]

/-- POWER_ON_RESET gives the defaults of R198. -/
theorem exec_powerOnReset_levels (s : State) :
    ∃ t, exec .powerOnReset s = .next t ∧ t.notices.levels = Levels.reset :=
  ⟨_, rfl, rfl⟩

/-! ### The entry taken (R204) -/

/-- An element better than all before it, that none after it betters, is the first of the best. -/
theorem firstBest_append_cons {α : Type} {better : α → α → Bool} {l r : List α} {e : α}
    (hl : ∀ x ∈ l, better e x = true) (hr : ∀ x ∈ r, better x e = false) :
    firstBest better (l ++ e :: r) = some e := by
  have stays : r.foldl (fun best y => if better y best then y else best) e = e := by
    induction r with
    | nil => rfl
    | cons y r ih =>
      simp only [List.mem_cons, forall_eq_or_imp] at hr
      simpa [hr.1] using ih hr.2
  cases l with
  | nil => simpa [firstBest] using stays
  | cons x l =>
    have beaten := hl _ (firstBest_fold_mem better l x)
    simp [firstBest, List.foldl_append, beaten, stays]

theorem Levels.takenBefore_iff {l : Levels} {a b : Entry} : l.takenBefore a b = true ↔
    l.level b.kind < l.level a.kind ∨ (l.level b.kind = l.level a.kind ∧ a.kind.code < b.kind.code) := by
  simp [Levels.takenBefore, eq_comm (a := l.level a.kind)]

/-- The order is by level and kind alone, and what is tied with an entry is not taken before it. -/
theorem Levels.takenBefore_eq_false {l : Levels} {a b : Entry}
    (h : l.takenBefore b a = true ∨ (l.level a.kind = l.level b.kind ∧ b.kind.code = a.kind.code)) :
    l.takenBefore a b = false := by
  rw [Levels.takenBefore_iff] at h
  rw [← Bool.not_eq_true, Levels.takenBefore_iff]
  omega

/-- An entry taken before all older ones, that no newer one is taken before, is chosen, and its erasure leaves the
other entries in their order. -/
theorem Notices.chosen_of_split {n : Notices} {l r : List Entry} {e : Entry} (hn : n.entries = l ++ e :: r)
    (hl : ∀ x ∈ l, n.levels.takenBefore e x = true) (hr : ∀ x ∈ r, n.levels.takenBefore x e = false) :
    n.chosen = some e ∧ n.entries.erase e = l ++ r := by
  have fresh : e ∉ l := fun he => by
    have := Levels.takenBefore_iff.1 (hl e he)
    omega
  rw [Notices.chosen, hn]
  exact ⟨firstBest_append_cons hl hr, by rw [List.erase_append_right _ fresh, List.erase_cons_head]⟩

/-! ### The bytes of an entry (12.2) -/

theorem bytesOf_two (v : Nat) : bytesOf 2 v = [byteOf (v / 256), byteOf v] := by
  simp [bytesOf]

/-- What the data byte of a notice tells: of a move its bits 0 and 1 alone. -/
def NoticeData.Tells (d : Byte) : NoticeData → Prop
  | .none => d = 0x00
  | .advice ch => d = BitVec.ofNat 8 ch
  | .moveDone cut origin => d.getLsbD 0 = cut ∧ (d.getLsbD 1 = true ↔ origin = .advisor)
  | .moveFailed cause origin =>
    (d.getLsbD 0 = true ↔ cause = .lockLost) ∧ (d.getLsbD 1 = true ↔ origin = .advisor)

/-- The model's data byte tells the data. -/
theorem NoticeData.tells_byte (data : NoticeData) : data.Tells data.byte := by
  cases data with
  | none => rfl
  | advice ch => rfl
  | moveDone cut origin => cases cut <;> cases origin <;> simp [Tells, byte, MoveOrigin.bit, byteOf]
  | moveFailed cause origin => cases cause <;> cases origin <;> simp [Tells, byte, MoveOrigin.bit, byteOf]

/-! ### FETCH NOTICE -/

theorem exec_fetchNotice (s : State) : exec .fetchNotice s = execFetchNotice s := rfl

section FetchNotice
variable {s : State}

/-- With nothing pending the result is NONE. -/
theorem execFetchNotice_of_empty (hx : s.Executing 0x60 []) (hn : s.notices.entries = []) :
    execFetchNotice s = .next (s.finish [0x0B]) := by
  have nothing : s.notices.chosen = none := firstBest_eq_none.2 hn
  simp only [execFetchNotice, hx.request, nothing]
  rfl

/-- The chosen entry is removed, attention is judged again, and the entry's bytes are returned. -/
theorem execFetchNotice_of_chosen {e : Entry} (hx : s.Executing 0x60 []) (he : s.notices.chosen = some e) :
    execFetchNotice s = .next (State.finish
      (State.judge { s with notices := { s.notices with entries := s.notices.entries.erase e } })
      (0x00 :: e.bytes)) := by
  simp only [execFetchNotice, hx.request, he]
  rfl

end FetchNotice

/-- Settles O42: the code names the kind, and the split at the entry names the choice. -/
theorem noticeRequests : Obligations.NoticeRequests := by
  intro s code subject tells
  have hcode (k : NoticeKind) : code k = k.code := by cases k <;> rfl
  have hsubject (x : Subject) : x.bytes = subject x := by
    cases x with
    | handle i gen => exact bytesOf_two _
    | chain c => cases c <;> rfl
    | several => rfl
    | none => rfl
  have htells (x : NoticeData) : tells x.byte x := x.tells_byte
  refine ⟨fun b v hx => ?_, exec_reset_levels, ?_, fun hx => ?_⟩
  · rw [exec_setNoticeLevel]
    refine ⟨fun h => execSetNoticeLevel_of_no_kind hx (noticeKindOf_eq_none h), fun k hb => ?_⟩
    rw [hcode] at hb
    rw [← k.heldLevel_eq v.toNat]
    intro held
    refine ⟨_, execSetNoticeLevel_of_kind hx (noticeKindOf_of_code hb), ?_, rfl, ?_, rfl, rfl⟩
    · exact fun k' => s.notices.levels.level_setLevel_heldLevel k k' v.toNat
    · exact State.judge_attention_iff
  · obtain ⟨t, ht, levels⟩ := exec_powerOnReset_levels s
    exact ⟨t, ht, by rw [levels]; decide⟩
  · rw [exec_fetchNotice]
    refine ⟨execFetchNotice_of_empty hx, fun l e r hn => ?_⟩
    simp only [hcode]
    intro before after
    obtain ⟨chosen, rest⟩ := Notices.chosen_of_split hn
      (fun x older => Levels.takenBefore_iff.2 (before x older))
      (fun x newer => Levels.takenBefore_eq_false ((after x newer).imp_left Levels.takenBefore_iff.2))
    refine ⟨_, e.data.byte, execFetchNotice_of_chosen hx chosen, htells e.data, rest, rfl, ?_, ?_, rfl⟩
    · exact State.judge_attention_iff
    · rw [← hsubject]
      rfl

end Sys2Proof.Machine
end

section
/-! A raised notice (R199 to R201): the entry that a notice is counted in, merged into or replaces is named by a split
of the list at it, so each outcome of `enterNotice` is an equation between such splits. -/

namespace Sys2Proof.Machine

/-! ### Keys and counts (R197) -/

theorem Entry.hasKey_iff {e : Entry} {k : NoticeKind} {subj : Subject} :
    e.hasKey k subj = true ↔ e.key = (k, subj) := by
  simp [Entry.hasKey, Entry.key]

theorem Entry.hasKey_eq_false_iff {e : Entry} {k : NoticeKind} {subj : Subject} :
    e.hasKey k subj = false ↔ e.key ≠ (k, subj) := by
  rw [← Bool.not_eq_true, Entry.hasKey_iff]

theorem any_hasKey_iff {es : List Entry} {k : NoticeKind} {subj : Subject} :
    es.any (fun e => e.hasKey k subj) = true ↔ ∃ e ∈ es, e.key = (k, subj) := by
  simp only [List.any_eq_true, Entry.hasKey_iff]

theorem Entry.fold_eq (e : Entry) (data : NoticeData) :
    e.fold data = { e with count := min 255 (e.count + 1), data := data } := rfl

section Merge
variable {l r : List Entry} {e : Entry} {k : NoticeKind} {data : NoticeData}

/-! ### The merge (R200) -/

/-- A kind that has a SEVERAL entry merges into it. -/
theorem mergeNotice_of_several (he : e.key = (k, .several)) (hl : ∀ x ∈ l, x.key ≠ (k, .several)) :
    mergeNotice (l ++ e :: r) k data = l ++ { e.fold data with subject := .several } :: r := by
  have pending : ∃ x ∈ l ++ e :: r, x.key = (k, .several) := ⟨e, List.mem_append_cons_self, he⟩
  rw [mergeNotice, if_pos (any_hasKey_iff.2 pending)]
  exact modifyFirst_append (fun x hx => Entry.hasKey_eq_false_iff.2 (hl x hx)) (Entry.hasKey_iff.2 he)

/-- A kind without one merges into its oldest entry, which becomes the SEVERAL entry. -/
theorem mergeNotice_of_oldest (he : e.kind = k) (hl : ∀ x ∈ l, x.kind ≠ k)
    (noSeveral : ∀ x ∈ l ++ e :: r, x.key ≠ (k, .several)) :
    mergeNotice (l ++ e :: r) k data = l ++ { e.fold data with subject := .several } :: r := by
  have absent : ¬ ∃ x ∈ l ++ e :: r, x.key = (k, .several) := fun ⟨x, hx, hk⟩ => noSeveral x hx hk
  rw [mergeNotice, if_neg (mt any_hasKey_iff.1 absent)]
  exact modifyFirst_append (fun x hx => beq_false_of_ne (hl x hx)) (beq_iff_eq.2 he)

end Merge

/-! ### The replacement (R201) -/

/-- Of the entries that are not CLOCK_FALLBACK, one below all older and at or below all newer is the victim. -/
theorem replaceNotice_of_split {l r : List Entry} {e new : Entry} {lv : Levels} (he : e.kind ≠ .clockFallback)
    (hl : ∀ x ∈ l, x.kind = .clockFallback ∨ lv.level e.kind < lv.level x.kind)
    (hr : ∀ x ∈ r, x.kind = .clockFallback ∨ lv.level e.kind ≤ lv.level x.kind) :
    replaceNotice (l ++ e :: r) lv new = l ++ r ++ [new] := by
  have fresh : e ∉ l := fun h => (hl e h).elim he (lt_irrefl _)
  have victim : firstBest (fun a b : Entry => decide (lv.level a.kind < lv.level b.kind))
      ((l ++ e :: r).filter (fun x => x.kind != .clockFallback)) = some e := by
    rw [List.filter_append, List.filter_cons_of_pos (by simpa using he)]
    refine firstBest_append_cons (fun x hx => ?_) (fun x hx => ?_)
    · obtain ⟨older, eligible⟩ := List.mem_filter.1 hx
      exact decide_eq_true ((hl x older).resolve_left (bne_iff_ne.1 eligible))
    · obtain ⟨newer, eligible⟩ := List.mem_filter.1 hx
      exact decide_eq_false (not_lt.2 ((hr x newer).resolve_left (bne_iff_ne.1 eligible)))
  simp only [replaceNotice, victim]
  rw [List.erase_append_right _ fresh, List.erase_cons_head]

/-! ### The entry of a notice (R199) -/

section Enter
variable {es l r : List Entry} {e : Entry} {lv : Levels} {k : NoticeKind} {subj : Subject} {data : NoticeData}

/-- A pending key is counted where it stands. -/
theorem enterNotice_of_pending (he : e.key = (k, subj)) (hl : ∀ x ∈ l, x.key ≠ (k, subj)) :
    enterNotice (l ++ e :: r) lv k subj data = l ++ e.fold data :: r := by
  have pending : ∃ x ∈ l ++ e :: r, x.key = (k, subj) := ⟨e, List.mem_append_cons_self, he⟩
  rw [enterNotice, if_pos (any_hasKey_iff.2 pending)]
  exact modifyFirst_append (fun x hx => Entry.hasKey_eq_false_iff.2 (hl x hx)) (Entry.hasKey_iff.2 he)

/-- A new key enters a list that has room as its newest entry. -/
theorem enterNotice_of_room (absent : ¬ ∃ x ∈ es, x.key = (k, subj)) (room : es.length < noticeCapacity) :
    enterNotice es lv k subj data = es ++ [⟨k, subj, 1, data⟩] := by
  rw [enterNotice, if_neg (mt any_hasKey_iff.1 absent), if_pos room]

/-- A new key of a pending kind merges at a full list. -/
theorem enterNotice_of_full_of_kind (absent : ¬ ∃ x ∈ es, x.key = (k, subj)) (full : noticeCapacity ≤ es.length)
    (pending : ∃ x ∈ es, x.kind = k) : enterNotice es lv k subj data = mergeNotice es k data := by
  have hkind : es.any (fun x => x.kind == k) = true := by simpa using pending
  rw [enterNotice, if_neg (mt any_hasKey_iff.1 absent), if_neg (not_lt.2 full), if_pos hkind]

/-- A new kind replaces an entry of a full list. -/
theorem enterNotice_of_full_of_new_kind (full : noticeCapacity ≤ es.length) (absent : ∀ x ∈ es, x.kind ≠ k) :
    enterNotice es lv k subj data = replaceNotice es lv ⟨k, subj, 1, data⟩ := by
  have hkey : ¬ ∃ x ∈ es, x.key = (k, subj) := fun ⟨x, hx, hk⟩ => absent x hx (congrArg Prod.fst hk)
  have hkind : ¬ es.any (fun x => x.kind == k) = true := by simpa using absent
  rw [enterNotice, if_neg (mt any_hasKey_iff.1 hkey), if_neg (not_lt.2 full), if_neg hkind]

end Enter

/-! ### The raised notice -/

/-- Settles O41: the entries are those of `enterNotice`, whose outcome the key, the room and the kind decide in turn. -/
theorem raisingANotice : Obligations.RaisingANotice := by
  intro s k subj data
  rcases s.raise_cases k subj data with ⟨zero, unchanged⟩ | ⟨positive, raised⟩
  · exact ⟨fun _ => unchanged, fun h => absurd zero h⟩
  refine ⟨fun h => absurd h positive, fun _ => ?_⟩
  intro before pendingKey fresh
  refine ⟨enterNotice before s.notices.levels k subj data, _, raised, State.judge_attention_iff, ?counted,
    enterNotice_of_room, ?merged, ?replaces⟩
  case counted =>
    intro l e r split he hl
    rw [split, enterNotice_of_pending he hl, Entry.fold_eq]
  case merged =>
    intro l e r absent full split target
    have pending : ∃ x ∈ before, x.kind = k :=
      ⟨e, split ▸ List.mem_append_cons_self, target.elim (congrArg Prod.fst ·.1) (·.1)⟩
    rw [enterNotice_of_full_of_kind absent full pending]
    rw [split] at target ⊢
    rcases target with ⟨he, hl⟩ | ⟨he, hl, noSeveral⟩
    · exact mergeNotice_of_several he hl
    · exact mergeNotice_of_oldest he hl noSeveral
  case replaces =>
    intro l e r full absent split he hl hr
    rw [enterNotice_of_full_of_new_kind full absent, split]
    exact replaceNotice_of_split he hl hr

end Sys2Proof.Machine
end

section
/-! What each command may change: one equation for each row, which names the blocks that the row writes, and from
these the frame of every command. A law over some blocks then looks at the commands that write them alone. -/

namespace Sys2Proof.Machine

variable (s : State)

/-! ### The shared acts -/

theorem State.handOver_writes : ∃ predictor, s.handOver = { s with predictor := predictor } :=
  ⟨_, s.handOver_frame⟩

theorem State.create_writes (span : Span) (part : Part) :
    ∃ table notices, s.create span part = { s with table := table, notices := notices } := by
  rcases s.create_cases span part with ⟨i, t, -, h⟩ | ⟨-, h⟩
  · exact ⟨_, _, h⟩
  · exact ⟨_, _, h.trans (s.raise_frame _ _ _)⟩

theorem State.confirm_writes (i : Nat) :
    ∃ table notices, s.confirm i = { s with table := table, notices := notices } := by
  rcases s.confirm_cases i with ⟨r, -, -, -, h⟩ | h
  · exact ⟨_, _, h.trans (State.raise_frame _ _ _ _)⟩
  · exact ⟨_, _, h⟩

theorem State.setHeld_writes (i : Nat) (held : Bool) : ∃ table, s.setHeld i held = { s with table := table } := by
  unfold State.setHeld
  split <;> exact ⟨_, rfl⟩

theorem State.letGo_writes : ∃ table cursor, s.letGo = { s with table := table, cursor := cursor } := by
  unfold State.letGo
  split
  · next c _ =>
    obtain ⟨table, h⟩ := s.setHeld_writes c.slot false
    exact ⟨table, none, by rw [h]⟩
  · exact ⟨_, _, rfl⟩

theorem State.hold_writes (i : Nat) : ∃ table cursor, s.hold i = { s with table := table, cursor := cursor } := by
  obtain ⟨table, h⟩ := s.setHeld_writes i true
  exact ⟨table, _, by rw [State.hold, h]⟩

theorem State.completeMove_writes (c : Chain) (cut : Bool) :
    ∃ radio notices, s.completeMove c cut = { s with radio := radio, notices := notices } :=
  ⟨_, _, State.raise_frame _ _ _ _⟩

theorem State.failMove_writes (c : Chain) (cause : FailCause) :
    ∃ radio notices, s.failMove c cause = { s with radio := radio, notices := notices } :=
  ⟨_, _, State.raise_frame _ _ _ _⟩

theorem State.lockCompletes_writes (c : Chain) :
    ∃ radio notices, s.lockCompletes c = { s with radio := radio, notices := notices } := by
  unfold State.lockCompletes
  dsimp only
  split
  · exact ⟨_, _, State.raise_frame _ _ _ _⟩
  · exact ⟨_, _, rfl⟩

theorem State.qualify_writes : ∃ timebase notices, s.qualify = { s with timebase := timebase, notices := notices } := by
  unfold State.qualify
  dsimp only
  split
  · exact ⟨_, _, rfl⟩
  · exact ⟨_, _, State.raise_frame _ _ _ _⟩
  · exact ⟨_, _, rfl⟩

theorem State.actOn_writes (c : Chain) (v : Evaluation) :
    ∃ radio notices, s.actOn c v = { s with radio := radio, notices := notices } := by
  rcases s.actOn_cases c v with ⟨-, h⟩ | ⟨best, -, h⟩
  · exact ⟨_, _, h⟩
  · exact ⟨_, _, h⟩

/-- The state in which both evaluations of a mid-epoch act: the channels are costed, and the instant's work is taken. -/
def State.recosted : State :=
  { s.costed with timebase := { s.timebase with midDue := false }, freeCount := s.freeCount + 1 }

/-- One chain's evaluation acts first, and the other's after it, both from one reading (R136). -/
theorem State.midEpochWork_eq : ∃ c, s.midEpochWork =
    (s.recosted.actOn c (s.recosted.evaluateChain c)).actOn (otherChain c)
      (s.recosted.evaluateChain (otherChain c)) := by
  unfold State.midEpochWork
  dsimp only
  split
  · exact ⟨.B, rfl⟩
  · exact ⟨.A, rfl⟩

theorem State.midEpochWork_writes : ∃ timebase advisor radio notices freeCount, s.midEpochWork =
    { s with timebase := timebase, advisor := advisor, radio := radio, notices := notices,
             freeCount := freeCount } := by
  obtain ⟨c, h⟩ := s.midEpochWork_eq
  obtain ⟨r, n, h1⟩ := s.recosted.actOn_writes c (s.recosted.evaluateChain c)
  obtain ⟨r', n', h2⟩ := (s.recosted.actOn c (s.recosted.evaluateChain c)).actOn_writes (otherChain c)
    (s.recosted.evaluateChain (otherChain c))
  exact ⟨_, _, r', n', _, by rw [h, h2, h1]; rfl⟩

theorem State.closeCommit_writes (c : Cursor) : ∃ table cursor notices,
    (s.closeCommit c).state = { s with table := table, cursor := cursor, notices := notices } := by
  unfold State.closeCommit
  split
  · exact ⟨_, _, _, rfl⟩
  split
  · exact ⟨_, _, _, rfl⟩
  split
  · exact ⟨_, _, _, rfl⟩
  dsimp only
  generalize hu : s.putRecord c.slot _ = u
  split
  · obtain ⟨table, cursor, h⟩ := (u.confirm c.slot).letGo_writes
    obtain ⟨table', notices, h'⟩ := u.confirm_writes c.slot
    exact ⟨table, cursor, notices, by rw [h, h', ← hu]; rfl⟩
  · obtain ⟨table, cursor, h⟩ := u.letGo_writes
    exact ⟨table, cursor, _, by rw [h, ← hu]; rfl⟩

theorem State.closeDiscard_writes (c : Cursor) : ∃ table cursor,
    (s.closeDiscard c).state = { s with table := table, cursor := cursor } := by
  unfold State.closeDiscard
  split
  · exact ⟨_, _, rfl⟩
  · exact s.letGo_writes

theorem State.openNext_writes (held : Option Nat) (status : Byte) : ∃ table cursor link,
    s.openNext held status = { s with table := table, cursor := cursor, link := link } := by
  unfold State.openNext
  split
  · next i _ =>
    obtain ⟨table, cursor, h⟩ := s.hold_writes i
    exact ⟨table, cursor, _, by dsimp only [State.answerOk, State.finish]; rw [h]⟩
  · exact ⟨_, _, _, rfl⟩

theorem State.applyReport_writes (rep : Report) (clock : ClockState) :
    ∃ table notices, s.applyReport rep clock = { s with table := table, notices := notices } := by
  have hit (i : Nat) (r : Record) :
      ∃ table notices, (s.putRecord i r).confirm i = { s with table := table, notices := notices } := by
    obtain ⟨table, notices, h⟩ := (s.putRecord i r).confirm_writes i
    exact ⟨table, notices, h⟩
  unfold State.applyReport
  split
  · unfold State.applySwept
    split
    · exact hit _ _
    split
    · exact ⟨_, _, rfl⟩
    split
    · exact ⟨_, _, rfl⟩
    split
    · split
      · unfold State.acquirePeriod
        split
        · exact ⟨_, _, rfl⟩
        · exact hit _ _
        · exact ⟨_, _, rfl⟩
      · exact ⟨_, _, rfl⟩
    · exact s.create_writes _ _
  · unfold State.applyPreamble
    dsimp only
    split
    · exact hit _ _
    · exact s.create_writes _ _
  · unfold State.applySteady
    split
    · exact hit _ _
    · exact s.create_writes _ _

/-! ### The rows -/

theorem execReportArrival_writes (frame : List Byte) : ∃ intake notices, execReportArrival frame s =
    .next { s with intake := intake, notices := notices } := by
  unfold execReportArrival
  split
  · unfold State.offerReport
    split
    · exact ⟨_, _, rfl⟩
    · exact ⟨_, _, congrArg _ (State.raise_frame _ _ _ _)⟩
  · exact ⟨_, _, rfl⟩

theorem execTakeReport_writes : ∃ intake table notices, execTakeReport s =
    .next { s with intake := intake, table := table, notices := notices } := by
  unfold execTakeReport
  split
  · obtain ⟨table, notices, h⟩ := State.applyReport_writes _ _ _
    exact ⟨_, table, notices, congrArg _ h⟩
  · exact ⟨_, _, _, rfl⟩

theorem execEpochBoundary_writes : ∃ timebase table intake radio notices freeCount, execEpochBoundary s =
    .next { s with
      timebase := timebase, table := table, intake := intake, radio := radio, notices := notices
      freeCount := freeCount } := by
  unfold execEpochBoundary
  rcases s.atInstant_cases s.timebase.untilBoundary State.boundaryWork with ⟨-, h⟩ | ⟨-, h⟩
  · obtain ⟨notices, h'⟩ := State.boundaryWork_frame _
    exact ⟨_, _, _, _, notices, _, congrArg _ (h.trans h')⟩
  · exact ⟨_, _, _, _, _, _, congrArg _ h⟩

theorem execMidEpoch_writes : ∃ timebase advisor radio notices freeCount, execMidEpoch s =
    .next { s with timebase := timebase, advisor := advisor, radio := radio, notices := notices, freeCount := freeCount } := by
  unfold execMidEpoch
  rcases s.atInstant_cases s.timebase.untilMidEpoch State.midEpochWork with ⟨-, h⟩ | ⟨-, h⟩
  · obtain ⟨timebase, advisor, radio, notices, freeCount, h'⟩ := State.midEpochWork_writes _
    exact ⟨timebase, advisor, radio, notices, freeCount, congrArg _ (h.trans h')⟩
  · exact ⟨_, _, _, _, _, congrArg _ h⟩

theorem execAutomaticMove_writes (c : Chain) : ∃ radio, execAutomaticMove c s =
    .next { s with radio := radio } := by
  unfold execAutomaticMove
  repeat' (split <;> try dsimp only)
  all_goals exact ⟨_, rfl⟩

theorem execQueryArrival_writes (frame : List Byte) : ∃ predictor, execQueryArrival frame s =
    .next { s with predictor := predictor } := by
  unfold execQueryArrival
  split
  · exact ⟨_, rfl⟩
  split
  · exact ⟨_, rfl⟩
  split
  · exact ⟨_, congrArg _ (State.handOver_frame _)⟩
  · exact ⟨_, rfl⟩

theorem execDelivery_writes : ∃ predictor link, execDelivery s =
    .next { s with predictor := predictor, link := link } := by
  unfold execDelivery
  split
  · exact ⟨_, _, rfl⟩
  split
  · split
    · exact ⟨_, _, congrArg _ (State.handOver_frame _)⟩
    · exact ⟨_, _, congrArg _ (State.handOver_frame _)⟩
  · exact ⟨_, _, congrArg _ (State.handOver_frame _)⟩

theorem execAnswerFrameSent_writes : ∃ predictor, execAnswerFrameSent s =
    .next { s with predictor := predictor } := by
  unfold execAnswerFrameSent
  repeat' (split <;> try dsimp only)
  all_goals exact ⟨_, rfl⟩

theorem execSelectAsserted_writes : ∃ link, execSelectAsserted s =
    .next { s with link := link } := by
  unfold execSelectAsserted
  repeat' (split <;> try dsimp only)
  all_goals exact ⟨_, rfl⟩

theorem execStatusExchange_writes (b : Byte) : ∃ link, execStatusExchange b s =
    .next { s with link := link } := by
  unfold execStatusExchange
  repeat' split
  all_goals exact ⟨_, rfl⟩

theorem execRequestCode_writes (b : Byte) : ∃ link, execRequestCode b s =
    .next { s with link := link } := by
  unfold execRequestCode State.written State.takeCode
  repeat' split
  all_goals exact ⟨_, rfl⟩

theorem execParameterByte_writes (b : Byte) : ∃ link, execParameterByte b s =
    .next { s with link := link } := by
  unfold execParameterByte State.written
  split
  · exact ⟨_, rfl⟩
  · exact ⟨_, rfl⟩

theorem execIgnoredByte_writes (b : Byte) : ∃ link, execIgnoredByte b s =
    .next { s with link := link } := by
  unfold execIgnoredByte State.written
  repeat' split
  all_goals exact ⟨_, rfl⟩

theorem execAbandon_writes (b : Byte) : ∃ link, execAbandon b s =
    .next { s with link := link } := by
  unfold execAbandon State.written State.takeCode
  repeat' split
  all_goals exact ⟨_, rfl⟩

theorem execAbort_writes (b : Byte) : ∃ link sweep predictor, execAbort b s =
    .next { s with link := link, sweep := sweep, predictor := predictor } := by
  unfold execAbort State.written
  split
  · dsimp only
    split
    · exact ⟨_, _, _, rfl⟩
    split
    · exact ⟨_, _, _, congrArg _ (State.handOver_frame _)⟩
    · exact ⟨_, _, _, rfl⟩
  · exact ⟨_, _, _, rfl⟩

theorem execReadResultByte_writes : ∃ link, execReadResultByte s =
    .next { s with link := link } := by
  unfold execReadResultByte
  repeat' split
  all_goals exact ⟨_, rfl⟩

theorem execReadStatus_writes : ∃ link, execReadStatus s =
    .next { s with link := link } := by
  unfold execReadStatus
  repeat' split
  all_goals exact ⟨_, rfl⟩

theorem execReset_writes : ∃ table intake predictor radio advisor cursor sweep notices link, execReset s =
    .next { s with
      table := table, intake := intake, predictor := predictor, radio := radio, advisor := advisor
      cursor := cursor, sweep := sweep, notices := notices, link := link } := by
  unfold execReset
  repeat' split
  all_goals exact ⟨_, _, _, _, _, _, _, _, _, rfl⟩

theorem execSetDomain_writes : ∃ radio link, execSetDomain s =
    .next { s with radio := radio, link := link } := by
  unfold execSetDomain
  repeat' split
  all_goals exact ⟨_, _, rfl⟩

theorem execSetParameter_writes : ∃ params notices link, execSetParameter s =
    .next { s with params := params, notices := notices, link := link } := by
  unfold execSetParameter
  split
  · split
    · exact ⟨_, _, _, rfl⟩
    · exact ⟨_, _, _, by dsimp only [State.answerOk, State.finish]; rw [State.setParam_frame]⟩
  · exact ⟨_, _, _, rfl⟩

theorem execSetNoticeLevel_writes : ∃ notices link, execSetNoticeLevel s =
    .next { s with notices := notices, link := link } := by
  unfold execSetNoticeLevel
  repeat' split
  all_goals exact ⟨_, _, rfl⟩

theorem execSetTuneCode_writes : ∃ radio link, execSetTuneCode s =
    .next { s with radio := radio, link := link } := by
  unfold execSetTuneCode
  repeat' (split <;> try dsimp only)
  all_goals exact ⟨_, _, rfl⟩

theorem execSetAuto_writes : ∃ radio link, execSetAuto s =
    .next { s with radio := radio, link := link } := by
  unfold execSetAuto
  repeat' (split <;> try dsimp only)
  all_goals exact ⟨_, _, rfl⟩

theorem execRestoreClock_writes : ∃ timebase link, execRestoreClock s =
    .next { s with timebase := timebase, link := link } := by
  unfold execRestoreClock
  repeat' (split <;> try dsimp only)
  all_goals exact ⟨_, _, rfl⟩

theorem execMove_writes : ∃ radio link, execMove s =
    .next { s with radio := radio, link := link } := by
  unfold execMove
  repeat' split
  all_goals exact ⟨_, _, rfl⟩

theorem execStep_writes : ∃ radio link, execStep s =
    .next { s with radio := radio, link := link } := by
  unfold execStep
  repeat' (split <;> try dsimp only)
  all_goals exact ⟨_, _, rfl⟩

theorem execSetChannel_writes : ∃ radio link, execSetChannel s =
    .next { s with radio := radio, link := link } := by
  unfold execSetChannel
  repeat' (split <;> try dsimp only)
  all_goals exact ⟨_, _, rfl⟩

theorem execAbortMove_writes : ∃ radio notices link, execAbortMove s =
    .next { s with radio := radio, notices := notices, link := link } := by
  unfold execAbortMove
  split
  · split
    · exact ⟨_, _, _, rfl⟩
    · next c _ =>
      obtain ⟨radio, notices, h⟩ := s.completeMove_writes c true
      split
      · exact ⟨radio, notices, _, by dsimp only [State.answer, State.finish]; rw [h]⟩
      · exact ⟨_, _, _, rfl⟩
      all_goals exact ⟨_, _, _, rfl⟩
  · exact ⟨_, _, _, rfl⟩

theorem execLockAsserted_writes (c : Chain) : ∃ radio notices, execLockAsserted c s =
    .next { s with radio := radio, notices := notices } := by
  unfold execLockAsserted
  split
  · exact ⟨_, _, rfl⟩
  dsimp only
  obtain ⟨radio, notices, h⟩ := (s.setLock c true).lockCompletes_writes c
  split
  · exact ⟨radio, notices, congrArg _ h⟩
  all_goals exact ⟨_, _, rfl⟩

theorem execLockDeasserted_writes (c : Chain) : ∃ radio notices, execLockDeasserted c s =
    .next { s with radio := radio, notices := notices } := by
  unfold execLockDeasserted
  split
  · dsimp only
    obtain ⟨radio, notices, h⟩ := (s.setLock c false).failMove_writes c .lockLost
    split
    · exact ⟨radio, notices, congrArg _ h⟩
    · exact ⟨radio, notices, congrArg _ h⟩
    all_goals exact ⟨_, _, rfl⟩
  · exact ⟨_, _, rfl⟩

theorem execLockTimerExpiry_writes (c : Chain) : ∃ timebase radio notices, execLockTimerExpiry c s =
    .next { s with timebase := timebase, radio := radio, notices := notices } := by
  unfold execLockTimerExpiry
  split
  · next e _ _ =>
    rcases s.atInstant_cases (s.timebase.remaining e) _ with ⟨-, h⟩ | ⟨-, h⟩
    · obtain ⟨radio, notices, h'⟩ := State.failMove_writes _ c .noLock
      exact ⟨_, radio, notices, congrArg _ (h.trans h')⟩
    · exact ⟨_, _, _, congrArg _ h⟩
  · exact ⟨_, _, _, rfl⟩

theorem execDwellTimerExpiry_writes (c : Chain) : ∃ timebase radio notices, execDwellTimerExpiry c s =
    .next { s with timebase := timebase, radio := radio, notices := notices } := by
  unfold execDwellTimerExpiry
  split
  · next e _ _ =>
    rcases s.atInstant_cases (s.timebase.remaining e) _ with ⟨-, h⟩ | ⟨-, h⟩
    · obtain ⟨radio, notices, h'⟩ := State.completeMove_writes _ c false
      exact ⟨_, radio, notices, congrArg _ (h.trans h')⟩
    · exact ⟨_, _, _, congrArg _ h⟩
  · exact ⟨_, _, _, rfl⟩

theorem execPin_writes : ∃ table link, execPin s =
    .next { s with table := table, link := link } := by
  unfold execPin
  repeat' (split <;> try dsimp only)
  all_goals exact ⟨_, _, rfl⟩

theorem execSetOrigin_writes : ∃ table notices link, execSetOrigin s =
    .next { s with table := table, notices := notices, link := link } := by
  unfold execSetOrigin
  split
  · split
    · exact ⟨_, _, _, rfl⟩
    split
    · exact ⟨_, _, _, rfl⟩
    · next i r _ =>
      have pinned : ∀ s', s.pinRecord i r = .ok s' →
          ∃ table notices, s' = { s with table := table, notices := notices } := by
        unfold State.pinRecord
        intro s' h
        obtain ⟨table, notices, h'⟩ := s.confirm_writes i
        split at h
        · exact ⟨_, _, (Except.ok.inj h).symm⟩
        split at h
        · cases h
        split at h
        · cases h
        · exact ⟨_, notices, (Except.ok.inj h).symm.trans (by rw [h']; rfl)⟩
      have unpinned : ∃ table, s.unpinRecord i r = { s with table := table } := by
        unfold State.unpinRecord
        split <;> exact ⟨_, rfl⟩
      split
      · exact ⟨_, _, _, rfl⟩
      · next s' h =>
        split at h
        · obtain ⟨table, notices, rfl⟩ := pinned s' h
          exact ⟨_, _, _, rfl⟩
        · obtain ⟨table, h'⟩ := unpinned
          cases h
          exact ⟨table, _, _, by dsimp only [State.answerOk, State.finish]; rw [h']⟩
  · exact ⟨_, _, _, rfl⟩

theorem execRetire_writes : ∃ table link, execRetire s =
    .next { s with table := table, link := link } := by
  unfold execRetire
  repeat' split
  all_goals exact ⟨_, _, rfl⟩

theorem execOpenRecord_writes : ∃ table cursor link, execOpenRecord s =
    .next { s with table := table, cursor := cursor, link := link } := by
  unfold execOpenRecord
  split
  · split
    · exact ⟨_, _, _, rfl⟩
    split
    · exact ⟨_, _, _, rfl⟩
    · next i _ _ _ =>
      obtain ⟨table, cursor, h⟩ := s.letGo_writes
      obtain ⟨table', cursor', h'⟩ := s.letGo.hold_writes i
      exact ⟨table', cursor', _, by dsimp only [State.answerOk, State.finish]; rw [h', h]⟩
  · exact ⟨_, _, _, rfl⟩

theorem execReadRecord_writes : ∃ link, execReadRecord s =
    .next { s with link := link } := by
  unfold execReadRecord
  repeat' split
  all_goals exact ⟨_, rfl⟩

theorem execEditField_writes : ∃ cursor link, execEditField s =
    .next { s with cursor := cursor, link := link } := by
  unfold execEditField
  repeat' split
  all_goals exact ⟨_, _, rfl⟩

theorem execCloseRecord_writes : ∃ table cursor notices link, execCloseRecord s =
    .next { s with table := table, cursor := cursor, notices := notices, link := link } := by
  unfold execCloseRecord
  split
  · split
    · exact ⟨_, _, _, _, rfl⟩
    · exact ⟨_, _, _, _, rfl⟩
    · next commit c _ _ =>
      dsimp only
      split
      · obtain ⟨table, cursor, notices, h⟩ := s.closeCommit_writes c
        exact ⟨table, cursor, notices, _, by dsimp only [State.finish]; rw [h]⟩
      · obtain ⟨table, cursor, h⟩ := s.closeDiscard_writes c
        exact ⟨table, cursor, _, _, by dsimp only [State.finish]; rw [h]⟩
  · exact ⟨_, _, _, _, rfl⟩

theorem execNextRecord_writes : ∃ table cursor notices link, execNextRecord s =
    .next { s with table := table, cursor := cursor, notices := notices, link := link } := by
  unfold execNextRecord
  split
  · split
    · obtain ⟨table, cursor, link, h⟩ := s.openNext_writes none (resultByte .notOpen false)
      exact ⟨table, cursor, _, link, congrArg _ h⟩
    · next c _ =>
      dsimp only
      split
      · exact ⟨_, _, _, _, rfl⟩
      · obtain ⟨table, cursor, notices, h⟩ := s.closeCommit_writes c
        obtain ⟨table', cursor', link, h'⟩ := (s.closeCommit c).state.openNext_writes (some c.slot)
          (resultByte (s.closeCommit c).status (s.closeCommit c).clamped)
        exact ⟨table', cursor', notices, link, by rw [h', h]⟩
  · exact ⟨_, _, _, _, rfl⟩

theorem execSweep_writes : ∃ sweep link, execSweep s =
    .next { s with sweep := sweep, link := link } := by
  unfold execSweep
  repeat' split
  all_goals exact ⟨_, _, rfl⟩

theorem execSweepExamination_writes : ∃ sweep link, execSweepExamination s =
    .next { s with sweep := sweep, link := link } := by
  unfold execSweepExamination
  repeat' (split <;> try dsimp only)
  all_goals exact ⟨_, _, rfl⟩

theorem execPreview_writes : ∃ predictor link, execPreview s =
    .next { s with predictor := predictor, link := link } := by
  unfold execPreview
  split
  · dsimp only
    split
    · exact ⟨_, _, rfl⟩
    · exact ⟨_, _, congrArg _ (State.handOver_frame _)⟩
  · exact ⟨_, _, rfl⟩

theorem execReadCosts_writes : ∃ link, execReadCosts s =
    .next { s with link := link } := by
  unfold execReadCosts
  repeat' (split <;> try dsimp only)
  all_goals exact ⟨_, rfl⟩

theorem execFetchNotice_writes : ∃ notices link, execFetchNotice s =
    .next { s with notices := notices, link := link } := by
  unfold execFetchNotice
  repeat' (split <;> try dsimp only)
  all_goals exact ⟨_, _, rfl⟩

theorem execReferenceLoss_writes : ∃ timebase notices, execReferenceLoss s =
    .next { s with timebase := timebase, notices := notices } := by
  unfold execReferenceLoss
  split
  · dsimp only
    split
    · exact ⟨_, _, congrArg _ (State.raise_frame _ _ _ _)⟩
    all_goals exact ⟨_, _, rfl⟩
  · exact ⟨_, _, rfl⟩

theorem execReferenceReturn_writes : ∃ timebase, execReferenceReturn s =
    .next { s with timebase := timebase } := by
  unfold execReferenceReturn
  repeat' split
  all_goals exact ⟨_, rfl⟩

theorem execQualificationExpiry_writes : ∃ timebase notices, execQualificationExpiry s =
    .next { s with timebase := timebase, notices := notices } := by
  unfold execQualificationExpiry
  split
  · next e _ =>
    rcases s.atInstant_cases (s.timebase.remaining e) State.qualify with ⟨-, h⟩ | ⟨-, h⟩
    · obtain ⟨timebase, notices, h'⟩ := State.qualify_writes _
      exact ⟨timebase, notices, congrArg _ (h.trans h')⟩
    · exact ⟨_, _, congrArg _ h⟩
  all_goals exact ⟨_, _, rfl⟩

/-! ### The frame of every command -/

/-- The blocks of the state that commands write. -/
inductive Block where
  | timebase | table | intake | predictor | radio | advisor | link | cursor | sweep | notices | params | freeCount

/-- The blocks that a command may write; none writes the queue of commands. -/
def blocksOf : Instr → List Block
  | .powerOnReset =>
    [.timebase, .table, .intake, .predictor, .radio, .advisor, .link, .cursor, .sweep, .notices, .params]
  | .reportArrival _ => [.intake, .notices]
  | .detectorFrameDiscarded _ | .schedulerFrameDiscarded _ => []
  | .detectorReadyDeasserted | .detectorReadyAsserted => [.intake]
  | .takeReport => [.table, .intake, .notices]
  | .epochBoundary => [.timebase, .table, .intake, .radio, .notices, .freeCount]
  | .midEpoch => [.timebase, .radio, .advisor, .notices, .freeCount]
  | .automaticMove _ => [.radio]
  | .queryArrival _ | .evaluationStart | .answerFrameSent => [.predictor]
  | .delivery | .preview => [.predictor, .link]
  | .selectAsserted | .statusExchange _ | .selectDeasserted | .requestCode _ | .parameterByte _
  | .ignoredByte _ | .abandon _ | .readResultByte | .readStatus | .readRecord | .readCosts => [.link]
  | .abort _ => [.predictor, .link, .sweep]
  | .reset => [.table, .intake, .predictor, .radio, .advisor, .link, .cursor, .sweep, .notices]
  | .setDomain | .setTuneCode | .setAuto | .move | .step | .setChannel => [.radio, .link]
  | .setParameter => [.link, .notices, .params]
  | .setNoticeLevel | .fetchNotice => [.link, .notices]
  | .restoreClock => [.timebase, .link]
  | .abortMove => [.radio, .link, .notices]
  | .lockAsserted _ | .lockDeasserted _ => [.radio, .notices]
  | .lockTimerExpiry _ | .dwellTimerExpiry _ => [.timebase, .radio, .notices]
  | .pin | .retire => [.table, .link]
  | .setOrigin => [.table, .link, .notices]
  | .openRecord => [.table, .link, .cursor]
  | .editField => [.link, .cursor]
  | .closeRecord | .nextRecord => [.table, .link, .cursor, .notices]
  | .sweep | .sweepExamination => [.link, .sweep]
  | .referenceLoss | .qualificationExpiry => [.timebase, .notices]
  | .referenceReturn => [.timebase]

/-- Two states agree outside some blocks. -/
structure State.SameBut (bs : List Block) (s t : State) : Prop where
  timebase : .timebase ∉ bs → t.timebase = s.timebase
  table : .table ∉ bs → t.table = s.table
  intake : .intake ∉ bs → t.intake = s.intake
  predictor : .predictor ∉ bs → t.predictor = s.predictor
  radio : .radio ∉ bs → t.radio = s.radio
  advisor : .advisor ∉ bs → t.advisor = s.advisor
  link : .link ∉ bs → t.link = s.link
  cursor : .cursor ∉ bs → t.cursor = s.cursor
  sweep : .sweep ∉ bs → t.sweep = s.sweep
  notices : .notices ∉ bs → t.notices = s.notices
  params : .params ∉ bs → t.params = s.params
  freeCount : .freeCount ∉ bs → t.freeCount = s.freeCount
  pending : t.pending = s.pending

/-- Every command answers a next state, which agrees with the present one outside the blocks the command may write. -/
theorem exec_sameBut (c : Instr) : ∃ t, exec c s = .next t ∧ s.SameBut (blocksOf c) t := by
  cases c with
  | powerOnReset => exact ⟨_, rfl, by constructor <;> simp [blocksOf]⟩
  | reportArrival x =>
    obtain ⟨_, _, h⟩ := execReportArrival_writes s x
    exact ⟨_, h, by constructor <;> simp [blocksOf]⟩
  | detectorFrameDiscarded x => exact ⟨_, rfl, by constructor <;> simp [blocksOf]⟩
  | detectorReadyDeasserted => exact ⟨_, rfl, by constructor <;> simp [blocksOf]⟩
  | detectorReadyAsserted => exact ⟨_, rfl, by constructor <;> simp [blocksOf]⟩
  | takeReport =>
    obtain ⟨_, _, _, h⟩ := execTakeReport_writes s
    exact ⟨_, h, by constructor <;> simp [blocksOf]⟩
  | epochBoundary =>
    obtain ⟨_, _, _, _, _, _, h⟩ := execEpochBoundary_writes s
    exact ⟨_, h, by constructor <;> simp [blocksOf]⟩
  | midEpoch =>
    obtain ⟨_, _, _, _, _, h⟩ := execMidEpoch_writes s
    exact ⟨_, h, by constructor <;> simp [blocksOf]⟩
  | automaticMove x =>
    obtain ⟨_, h⟩ := execAutomaticMove_writes s x
    exact ⟨_, h, by constructor <;> simp [blocksOf]⟩
  | queryArrival x =>
    obtain ⟨_, h⟩ := execQueryArrival_writes s x
    exact ⟨_, h, by constructor <;> simp [blocksOf]⟩
  | schedulerFrameDiscarded x => exact ⟨_, rfl, by constructor <;> simp [blocksOf]⟩
  | evaluationStart =>
    obtain ⟨_, h⟩ := s.handOver_writes
    exact ⟨_, congrArg Host.Outcome.next h, by constructor <;> simp [blocksOf]⟩
  | delivery =>
    obtain ⟨_, _, h⟩ := execDelivery_writes s
    exact ⟨_, h, by constructor <;> simp [blocksOf]⟩
  | answerFrameSent =>
    obtain ⟨_, h⟩ := execAnswerFrameSent_writes s
    exact ⟨_, h, by constructor <;> simp [blocksOf]⟩
  | selectAsserted =>
    obtain ⟨_, h⟩ := execSelectAsserted_writes s
    exact ⟨_, h, by constructor <;> simp [blocksOf]⟩
  | statusExchange x =>
    obtain ⟨_, h⟩ := execStatusExchange_writes s x
    exact ⟨_, h, by constructor <;> simp [blocksOf]⟩
  | selectDeasserted => exact ⟨_, rfl, by constructor <;> simp [blocksOf]⟩
  | requestCode x =>
    obtain ⟨_, h⟩ := execRequestCode_writes s x
    exact ⟨_, h, by constructor <;> simp [blocksOf]⟩
  | parameterByte x =>
    obtain ⟨_, h⟩ := execParameterByte_writes s x
    exact ⟨_, h, by constructor <;> simp [blocksOf]⟩
  | ignoredByte x =>
    obtain ⟨_, h⟩ := execIgnoredByte_writes s x
    exact ⟨_, h, by constructor <;> simp [blocksOf]⟩
  | abort x =>
    obtain ⟨_, _, _, h⟩ := execAbort_writes s x
    exact ⟨_, h, by constructor <;> simp [blocksOf]⟩
  | abandon x =>
    obtain ⟨_, h⟩ := execAbandon_writes s x
    exact ⟨_, h, by constructor <;> simp [blocksOf]⟩
  | readResultByte =>
    obtain ⟨_, h⟩ := execReadResultByte_writes s
    exact ⟨_, h, by constructor <;> simp [blocksOf]⟩
  | readStatus =>
    obtain ⟨_, h⟩ := execReadStatus_writes s
    exact ⟨_, h, by constructor <;> simp [blocksOf]⟩
  | reset =>
    obtain ⟨_, _, _, _, _, _, _, _, _, h⟩ := execReset_writes s
    exact ⟨_, h, by constructor <;> simp [blocksOf]⟩
  | setDomain =>
    obtain ⟨_, _, h⟩ := execSetDomain_writes s
    exact ⟨_, h, by constructor <;> simp [blocksOf]⟩
  | setParameter =>
    obtain ⟨_, _, _, h⟩ := execSetParameter_writes s
    exact ⟨_, h, by constructor <;> simp [blocksOf]⟩
  | setNoticeLevel =>
    obtain ⟨_, _, h⟩ := execSetNoticeLevel_writes s
    exact ⟨_, h, by constructor <;> simp [blocksOf]⟩
  | setTuneCode =>
    obtain ⟨_, _, h⟩ := execSetTuneCode_writes s
    exact ⟨_, h, by constructor <;> simp [blocksOf]⟩
  | setAuto =>
    obtain ⟨_, _, h⟩ := execSetAuto_writes s
    exact ⟨_, h, by constructor <;> simp [blocksOf]⟩
  | restoreClock =>
    obtain ⟨_, _, h⟩ := execRestoreClock_writes s
    exact ⟨_, h, by constructor <;> simp [blocksOf]⟩
  | move =>
    obtain ⟨_, _, h⟩ := execMove_writes s
    exact ⟨_, h, by constructor <;> simp [blocksOf]⟩
  | step =>
    obtain ⟨_, _, h⟩ := execStep_writes s
    exact ⟨_, h, by constructor <;> simp [blocksOf]⟩
  | setChannel =>
    obtain ⟨_, _, h⟩ := execSetChannel_writes s
    exact ⟨_, h, by constructor <;> simp [blocksOf]⟩
  | abortMove =>
    obtain ⟨_, _, _, h⟩ := execAbortMove_writes s
    exact ⟨_, h, by constructor <;> simp [blocksOf]⟩
  | lockAsserted x =>
    obtain ⟨_, _, h⟩ := execLockAsserted_writes s x
    exact ⟨_, h, by constructor <;> simp [blocksOf]⟩
  | lockDeasserted x =>
    obtain ⟨_, _, h⟩ := execLockDeasserted_writes s x
    exact ⟨_, h, by constructor <;> simp [blocksOf]⟩
  | lockTimerExpiry x =>
    obtain ⟨_, _, _, h⟩ := execLockTimerExpiry_writes s x
    exact ⟨_, h, by constructor <;> simp [blocksOf]⟩
  | dwellTimerExpiry x =>
    obtain ⟨_, _, _, h⟩ := execDwellTimerExpiry_writes s x
    exact ⟨_, h, by constructor <;> simp [blocksOf]⟩
  | pin =>
    obtain ⟨_, _, h⟩ := execPin_writes s
    exact ⟨_, h, by constructor <;> simp [blocksOf]⟩
  | setOrigin =>
    obtain ⟨_, _, _, h⟩ := execSetOrigin_writes s
    exact ⟨_, h, by constructor <;> simp [blocksOf]⟩
  | retire =>
    obtain ⟨_, _, h⟩ := execRetire_writes s
    exact ⟨_, h, by constructor <;> simp [blocksOf]⟩
  | openRecord =>
    obtain ⟨_, _, _, h⟩ := execOpenRecord_writes s
    exact ⟨_, h, by constructor <;> simp [blocksOf]⟩
  | readRecord =>
    obtain ⟨_, h⟩ := execReadRecord_writes s
    exact ⟨_, h, by constructor <;> simp [blocksOf]⟩
  | editField =>
    obtain ⟨_, _, h⟩ := execEditField_writes s
    exact ⟨_, h, by constructor <;> simp [blocksOf]⟩
  | closeRecord =>
    obtain ⟨_, _, _, _, h⟩ := execCloseRecord_writes s
    exact ⟨_, h, by constructor <;> simp [blocksOf]⟩
  | nextRecord =>
    obtain ⟨_, _, _, _, h⟩ := execNextRecord_writes s
    exact ⟨_, h, by constructor <;> simp [blocksOf]⟩
  | sweep =>
    obtain ⟨_, _, h⟩ := execSweep_writes s
    exact ⟨_, h, by constructor <;> simp [blocksOf]⟩
  | sweepExamination =>
    obtain ⟨_, _, h⟩ := execSweepExamination_writes s
    exact ⟨_, h, by constructor <;> simp [blocksOf]⟩
  | preview =>
    obtain ⟨_, _, h⟩ := execPreview_writes s
    exact ⟨_, h, by constructor <;> simp [blocksOf]⟩
  | readCosts =>
    obtain ⟨_, h⟩ := execReadCosts_writes s
    exact ⟨_, h, by constructor <;> simp [blocksOf]⟩
  | fetchNotice =>
    obtain ⟨_, _, h⟩ := execFetchNotice_writes s
    exact ⟨_, h, by constructor <;> simp [blocksOf]⟩
  | referenceLoss =>
    obtain ⟨_, _, h⟩ := execReferenceLoss_writes s
    exact ⟨_, h, by constructor <;> simp [blocksOf]⟩
  | referenceReturn =>
    obtain ⟨_, h⟩ := execReferenceReturn_writes s
    exact ⟨_, h, by constructor <;> simp [blocksOf]⟩
  | qualificationExpiry =>
    obtain ⟨_, _, h⟩ := execQualificationExpiry_writes s
    exact ⟨_, h, by constructor <;> simp [blocksOf]⟩

variable {s}

/-- The frame of a command. -/
theorem exec_frame {c : Instr} {t : State} (h : exec c s = .next t) : s.SameBut (blocksOf c) t := by
  obtain ⟨u, hu, same⟩ := exec_sameBut s c
  cases hu.symm.trans h
  exact same

/-- Settles O2: every row answers, and the queue of commands is no block that a row writes. -/
theorem commandsAnswerNextAndKeepQueue : Obligations.CommandsAnswerNextAndKeepQueue := by
  intro c s
  obtain ⟨t, ht, same⟩ := exec_sameBut s c
  exact ⟨t, ht, same.pending⟩

/-! ### A step -/

/-- Settles O1: the queue's head is run on the state without it. -/
theorem stepRunsFrontCommand : Obligations.StepRunsFrontCommand := by
  intro s c rest h
  simp only [step, h]

theorem mem_dueWhen {b : Bool} {a x : Act} : x ∈ dueWhen b a ↔ b = true ∧ x = a := by
  cases b <;> simp [dueWhen]

theorem State.nextAct_mem {a : Act} (h : s.nextAct = some a) : a ∈ s.acts := List.mem_of_getElem? h

/-- No request, idle work or instant begins an exchange outside a transaction, or with one under way. -/
theorem State.exchangeBegins_of_mem_acts (h : .exchangeBegins ∈ s.acts) :
    s.link.transaction ≠ .none ∧ s.link.begun = none := by
  unfold State.acts at h
  split at h
  · simpa [State.untimed, State.timed, mem_dueWhen] using h
  · unfold State.immediate State.requestAct at h
    split at h <;> simp [mem_dueWhen] at h

/-- A microsecond passes over no instant that is not taken (R147). -/
theorem State.microsecond_of_mem_acts (h : .microsecond ∈ s.acts) : s.mayPass 1 = true := by
  unfold State.acts at h
  split at h
  · simpa [State.untimed, State.timed, mem_dueWhen] using h
  · unfold State.immediate State.requestAct at h
    split at h <;> simp [mem_dueWhen] at h

/-- What a step can do: a command on the state with the queue's rest or with the choice counted, the start of an
exchange, a microsecond, or nothing but the choice. -/
theorem step_cases {t : State} (h : step s = .next t) :
    (∃ c rest, s.pending = c :: rest ∧ exec c { s with pending := rest } = .next t)
      ∨ (s.pending = [] ∧
        ((∃ c, .command c ∈ s.acts ∧ exec c s.chosen = .next t)
          ∨ (.exchangeBegins ∈ s.acts ∧ t = s.chosen.beginExchange)
          ∨ (.microsecond ∈ s.acts ∧ t = s.chosen.tick)
          ∨ t = s.chosen)) := by
  unfold step at h
  split at h
  · next c rest hp => exact .inl ⟨c, rest, hp, h⟩
  · next hp =>
    refine .inr ⟨hp, ?_⟩
    split at h
    · next c ha => exact .inl ⟨c, State.nextAct_mem ha, h⟩
    · next ha => exact .inr (.inl ⟨State.nextAct_mem ha, (Host.Outcome.next.inj h).symm⟩)
    · next ha => exact .inr (.inr (.inl ⟨State.nextAct_mem ha, (Host.Outcome.next.inj h).symm⟩))
    · exact .inr (.inr (.inr (Host.Outcome.next.inj h).symm))

/-- A law that does not read the model's queue and free count is kept by every step that the commands, the start of
an exchange and a microsecond keep it by. -/
theorem step_keeps {P : State → Prop} {t : State}
    (own : ∀ (u : State) (n : Nat) (q : List Instr), P u → P { u with freeCount := n, pending := q })
    (command : ∀ (c : Instr) (u v : State), P u → exec c u = .next v → P v)
    (exchange : ∀ u : State, u.link.transaction ≠ .none → P u → P u.beginExchange)
    (microsecond : ∀ u : State, u.mayPass 1 = true → P u → P u.tick)
    (hs : P s) (h : step s = .next t) : P t := by
  have hc : P s.chosen := own s _ s.pending hs
  rcases step_cases h with ⟨c, rest, -, he⟩ | ⟨-, ⟨c, -, he⟩ | ⟨ha, rfl⟩ | ⟨ha, rfl⟩ | rfl⟩
  · exact command c _ t (own s s.freeCount rest hs) he
  · exact command c _ t hc he
  · exact exchange _ (State.exchangeBegins_of_mem_acts ha).1 hc
  · exact microsecond _ (State.microsecond_of_mem_acts ha) hc
  · exact hc

end Sys2Proof.Machine
end

section
/-! The counts of R3 by state, and the table operations that keep them those of the slots: a replaced slot, and a pass
over every slot. -/

namespace Sys2Proof.Machine

/-! ### The counts by state (R3) -/

/-- The count of a state; FREE is none. -/
def StateCounts.of (c : StateCounts) : Option RecState → Nat
  | none => c.free
  | some .candidate => c.candidate
  | some .tracked => c.tracked
  | some .coasting => c.coasting
  | some .retired => c.retired

theorem StateCounts.of_inc (c : StateCounts) (st st' : Option RecState) :
    (c.inc st).of st' = c.of st' + if st = st' then 1 else 0 := by
  rcases st with _ | _ | _ | _ | _ <;> rcases st' with _ | _ | _ | _ | _ <;> rfl

theorem StateCounts.of_dec (c : StateCounts) (st st' : Option RecState) :
    (c.dec st).of st' = c.of st' - if st = st' then 1 else 0 := by
  rcases st with _ | _ | _ | _ | _ <;> rcases st' with _ | _ | _ | _ | _ <;> rfl

/-- The five counts are one law over the states. -/
theorem Table.countsLaw_iff {t : Table} : t.CountsLaw ↔ t.slots.length = 64
    ∧ (∀ st, t.counts.of st = t.countOf st) ∧ t.pinned = t.slots.countP (fun x => x.pinnedOne == 1) := by
  constructor
  · rintro ⟨len, f, c, tr, co, re, p⟩
    refine ⟨len, fun st => ?_, p⟩
    rcases st with _ | _ | _ | _ | _
    exacts [f, c, tr, co, re]
  · rintro ⟨len, h, p⟩
    exact ⟨len, h none, h (some .candidate), h (some .tracked), h (some .coasting), h (some .retired), p⟩

/-- A slot counts as pinned once or not at all. -/
theorem Slot.pinnedOne_eq_ite (x : Slot) : x.pinnedOne = if x.pinnedOne = 1 then 1 else 0 := by
  unfold Slot.pinnedOne
  split
  · rfl
  · split <;> rfl

@[simp] theorem Table.counts_moved (t : Table) (x y : Slot) :
    (t.moved x y).counts = (t.counts.inc y.state).dec x.state := rfl
@[simp] theorem Table.pinned_moved (t : Table) (x y : Slot) :
    (t.moved x y).pinned = t.pinned + y.pinnedOne - x.pinnedOne := rfl

/-! ### A replaced slot -/

/-- A count over the slots follows a replaced slot. -/
theorem Table.countP_replace {t : Table} {i : Nat} {x : Slot} (p : Slot → Bool) (h : i < t.slots.length) :
    (t.replace i x).slots.countP p + (if p (t.slot i) then 1 else 0) =
      t.slots.countP p + if p x then 1 else 0 := by
  have hs : t.slot i = t.slots[i] := by simp [Table.slot, List.getD, h]
  have pos : p t.slots[i] = true → 0 < t.slots.countP p :=
    fun hp => List.countP_pos_iff.2 ⟨_, List.getElem_mem h, hp⟩
  show (t.slots.set i x).countP p + _ = _
  rw [List.countP_set h, hs]
  by_cases hp : p t.slots[i] = true
  · have := pos hp
    simp only [hp, if_true]
    omega
  · simp [hp]

/-- The counts follow a replaced slot (R3). -/
theorem Table.CountsLaw.replace {t : Table} {i : Nat} (x : Slot) (law : t.CountsLaw) (h : i < t.slots.length) :
    (t.replace i x).CountsLaw := by
  obtain ⟨len, counts, pinned⟩ := Table.countsLaw_iff.1 law
  refine Table.countsLaw_iff.2 ⟨by simp [len], fun st => ?_, ?_⟩
  · have key := Table.countP_replace (x := x) (fun y => y.state == st) h
    have cnt := counts st
    simp only [Table.countOf, beq_iff_eq] at key cnt ⊢
    rw [Table.counts_replace, StateCounts.of_dec, StateCounts.of_inc, cnt]
    omega
  · have key := Table.countP_replace (x := x) (fun y => y.pinnedOne == 1) h
    rw [Table.pinned_replace, pinned]
    have hx := x.pinnedOne_eq_ite
    have hy := (t.slot i).pinnedOne_eq_ite
    simp only [beq_iff_eq] at key ⊢
    omega

/-! ### A pass over every slot -/

/-- The counts follow the slots that a pass has gone by; `done` holds what those have become. -/
theorem Table.foldl_moved_counts (f : Slot → Slot) (xs done : List Slot) (t : Table)
    (counts : ∀ st, t.counts.of st = (done ++ xs).countP (fun x => x.state == st))
    (pinned : t.pinned = (done ++ xs).countP (fun x => x.pinnedOne == 1)) :
    let t' := xs.foldl (fun acc x => acc.moved x (f x)) t
    (∀ st, t'.counts.of st = (done ++ xs.map f).countP (fun x => x.state == st))
      ∧ t'.pinned = (done ++ xs.map f).countP (fun x => x.pinnedOne == 1) := by
  induction xs generalizing done t with
  | nil => exact ⟨counts, pinned⟩
  | cons x xs ih =>
    rw [List.foldl_cons, List.map_cons, List.append_cons done (f x)]
    refine ih (done ++ [f x]) _ (fun st => ?_) ?_
    · have cnt := counts st
      simp only [List.countP_append, List.countP_cons, List.countP_nil, beq_iff_eq] at cnt ⊢
      rw [Table.counts_moved, StateCounts.of_dec, StateCounts.of_inc, cnt]
      omega
    · simp only [List.countP_append, List.countP_cons, List.countP_nil, beq_iff_eq] at pinned ⊢
      have hx := (f x).pinnedOne_eq_ite
      have hy := x.pinnedOne_eq_ite
      rw [Table.pinned_moved, pinned]
      omega

/-- The counts follow a pass over every slot. -/
theorem Table.CountsLaw.mapSlots {t : Table} (f : Slot → Slot) (law : t.CountsLaw) : (t.mapSlots f).CountsLaw := by
  obtain ⟨len, counts, pinned⟩ := Table.countsLaw_iff.1 law
  obtain ⟨counts', pinned'⟩ := Table.foldl_moved_counts f t.slots [] t counts pinned
  exact Table.countsLaw_iff.2 ⟨by simp [Table.mapSlots_slots, len], counts', pinned'⟩

/-- A pass that pins no slot leaves no more pinned than before. -/
theorem Table.pinned_mapSlots_le {t : Table} {f : Slot → Slot} (law : t.CountsLaw)
    (h : ∀ x ∈ t.slots, (f x).pinnedOne ≤ x.pinnedOne) : (t.mapSlots f).pinned ≤ t.pinned := by
  obtain ⟨-, -, pinned⟩ := Table.countsLaw_iff.1 law
  obtain ⟨-, -, pinned'⟩ := Table.countsLaw_iff.1 (law.mapSlots f)
  rw [pinned, pinned', Table.mapSlots_slots, List.countP_map]
  refine List.countP_mono_left fun x hx => ?_
  have le := h x hx
  have one := x.pinnedOne_eq_ite
  simp only [Function.comp_apply, beq_iff_eq]
  split at one <;> omega

/-! ### The soft reset -/

@[simp] theorem Slot.record_softReset (x : Slot) : x.softReset.record = none := by
  unfold Slot.softReset
  split
  · rfl
  · next h => exact h

/-- A soft reset leaves every slot FREE, and the counts say so (R28). -/
theorem Table.CountsLaw.softReset {t : Table} (law : t.CountsLaw) : t.softReset.CountsLaw := by
  obtain ⟨len, -⟩ := law
  have free (st : Option RecState) (x : Slot) : (x.softReset.state == st) = (none == st) := by
    rw [Slot.state, Slot.record_softReset]; rfl
  have unpinned (x : Slot) : (x.softReset.pinnedOne == 1) = false := by
    simp [Slot.pinnedOne]
  refine Table.countsLaw_iff.2 ⟨by simp [Table.softReset, len], fun st => ?_, ?_⟩
  · simp only [Table.softReset, Table.countOf, List.countP_map, Function.comp_def, free]
    rcases st with _ | _ | _ | _ | _ <;> simp [Table.reset, StateCounts.of, len]
  · simp [Table.softReset, Table.reset, List.countP_map, Function.comp_def, unpinned]

end Sys2Proof.Machine
end

section
/-! The searches of the table: which records each list holds, in ascending slot number, and which of them a search by
figure or by first hit takes. -/

namespace Sys2Proof.Machine

/-! ### The first of a list in ascending order -/

section Search
variable {α : Type} {idx : α → Nat} {l : List α} {z : α}

/-- A list in ascending order splits at an element into the lower ones and the higher ones. -/
theorem split_of_ascending (asc : l.Pairwise (fun a b => idx a < idx b)) (hz : z ∈ l) :
    ∃ below above, l = below ++ z :: above ∧ (∀ y ∈ below, idx y < idx z) ∧ ∀ y ∈ above, idx z < idx y := by
  obtain ⟨below, above, rfl⟩ := List.append_of_mem hz
  rw [List.pairwise_append, List.pairwise_cons] at asc
  obtain ⟨-, ⟨higher, -⟩, lower⟩ := asc
  exact ⟨below, above, rfl, fun y hy => lower y hy z List.mem_cons_self, higher⟩

/-- What none betters, and what betters all that stand lower, is the first of the best. -/
theorem firstBest_of_ascending {better : α → α → Bool} (asc : l.Pairwise (fun a b => idx a < idx b)) (hz : z ∈ l)
    (h : ∀ y ∈ l, better y z = false ∧ (better z y = true ∨ idx z ≤ idx y)) : firstBest better l = some z := by
  obtain ⟨below, above, rfl, lower, -⟩ := split_of_ascending asc hz
  refine firstBest_append_cons (fun y hy => ?_) (fun y hy => ?_)
  · exact (h y (by simp [hy])).2.resolve_right (not_le.2 (lower y hy))
  · exact (h y (by simp [hy])).1

/-- The lowest hit is found. -/
theorem find?_of_ascending {p : α → Bool} (asc : l.Pairwise (fun a b => idx a < idx b)) (hz : z ∈ l) (hp : p z = true)
    (h : ∀ y ∈ l, p y = true → idx z ≤ idx y) : l.find? p = some z := by
  obtain ⟨below, above, rfl, lower, -⟩ := split_of_ascending asc hz
  have miss : below.find? p = none := List.find?_eq_none.2 fun y hy py =>
    absurd (h y (by simp [hy]) py) (not_le.2 (lower y hy))
  rw [List.find?_append, miss, Option.none_or, List.find?_cons_of_pos hp]

end Search

/-! ### The lists of records -/

variable {t : Table} {i : Nat} {r : Record} {o : OvenPart}

theorem Record.live_iff : r.live = true ↔ r.state ≠ .retired := by simp [Record.live]

theorem Record.oven?_eq_some : r.oven? = some o ↔ r.part = .oven o := by
  unfold Record.oven?
  split
  · next p h => simp [h]
  · next h => simpa using fun e => h o e

theorem Record.oven?_of_part (h : r.part = .oven o) : r.oven? = some o := Record.oven?_eq_some.2 h

theorem Table.mem_liveRecords : (i, r) ∈ t.liveRecords ↔ t.record i = some r ∧ r.state ≠ .retired := by
  rw [Table.liveRecords, List.mem_filter, Table.mem_records, Record.live_iff]

theorem Table.mem_liveOvens :
    (i, r, o) ∈ t.liveOvens ↔ t.record i = some r ∧ r.state ≠ .retired ∧ r.part = .oven o := by
  simp only [Table.liveOvens, List.mem_filterMap, Option.map_eq_some_iff, Prod.mk.injEq]
  constructor
  · rintro ⟨⟨j, q⟩, hq, p, hp, rfl, rfl, rfl⟩
    obtain ⟨hr, hl⟩ := Table.mem_liveRecords.1 hq
    exact ⟨hr, hl, Record.oven?_eq_some.1 hp⟩
  · rintro ⟨hr, hl, hp⟩
    exact ⟨(i, r), Table.mem_liveRecords.2 ⟨hr, hl⟩, o, Record.oven?_of_part hp, rfl, rfl, rfl⟩

theorem Table.mem_rhythmic {rep : Report} :
    (i, r, o) ∈ t.rhythmic rep.span ↔ t.record i = some r ∧ r.part = .oven o ∧ r.Rhythmic o rep := by
  simp only [Table.rhythmic, List.mem_filter, Table.mem_liveOvens, Bool.and_eq_true, Record.Rhythmic]
  tauto

/-- The records stand in ascending slot number. -/
theorem Table.records_ascending (t : Table) : t.records.Pairwise (fun a b => a.1 < b.1) := by
  have indexed : t.slots.zipIdx.Pairwise (fun a b => a.2 < b.2) := by
    rw [← List.pairwise_map (f := Prod.snd) (R := (· < ·)), List.zipIdx_map_snd]
    exact List.pairwise_lt_range'
  refine List.Pairwise.filterMap _ (fun a b hab x hx y hy => ?_) indexed
  obtain ⟨_, -, rfl⟩ := Option.map_eq_some_iff.1 hx
  obtain ⟨_, -, rfl⟩ := Option.map_eq_some_iff.1 hy
  exact hab

theorem Table.liveRecords_ascending (t : Table) : t.liveRecords.Pairwise (fun a b => a.1 < b.1) :=
  t.records_ascending.filter _

theorem Table.liveOvens_ascending (t : Table) : t.liveOvens.Pairwise (fun a b => a.1 < b.1) := by
  refine List.Pairwise.filterMap _ (fun a b hab x hx y hy => ?_) t.liveRecords_ascending
  obtain ⟨_, -, rfl⟩ := Option.map_eq_some_iff.1 hx
  obtain ⟨_, -, rfl⟩ := Option.map_eq_some_iff.1 hy
  exact hab

/-! ### What each search takes -/

/-- The oven that step 1 takes is a rhythmic one of the table, with its phase match (R41). -/
theorem Table.matched_spec {rep : Report} {clock : ClockState} {m : PhaseMatch}
    (h : t.matched rep clock = some (i, r, o, m)) : t.record i = some r ∧ r.part = .oven o ∧ r.Rhythmic o rep := by
  obtain ⟨⟨j, q, p⟩, hq, hx⟩ := List.mem_filterMap.1 (firstBest_mem h)
  dsimp only at hx
  split at hx
  · cases hx
    exact Table.mem_rhythmic.1 hq
  · cases hx

/-- The oven that step 3 takes is a live pinned one of unknown phase (R43). -/
theorem Table.phaseless_spec {rep : Report} (h : t.phaseless rep.span = some (i, r, o)) :
    t.record i = some r ∧ r.part = .oven o ∧ r.Phaseless o rep := by
  have hit := List.find?_some h
  obtain ⟨hr, hl, hp⟩ := Table.mem_liveOvens.1 (List.mem_of_find?_eq_some h)
  simp only [Bool.and_eq_true, beq_iff_eq, Bool.not_eq_true'] at hit
  exact ⟨hr, hp, hl, hit.1.1, hit.1.2, hit.2⟩

/-- The candidates of step 4 (R44). -/
theorem Table.mem_periodless {rep : Report} :
    (i, r) ∈ t.liveRecords.filter (fun x => x.2.state == .candidate && x.2.span.overlaps rep.span
        && (x.2.oven?.map (fun o => !o.periodKnown)).getD false) ↔
      t.record i = some r ∧ ∃ o, r.part = .oven o ∧ r.Periodless o rep := by
  simp only [List.mem_filter, Table.mem_liveRecords, Bool.and_eq_true, beq_iff_eq, Record.Periodless]
  cases hp : r.oven? with
  | none =>
    have no (o : OvenPart) : r.part ≠ .oven o := fun h => by simp [Record.oven?_of_part h] at hp
    simp [no]
  | some o =>
    have part := Record.oven?_eq_some.1 hp
    simp only [part, Option.map_some, Option.getD_some, Part.oven.injEq, Bool.not_eq_true']
    constructor
    · rintro ⟨⟨hr, -⟩, ⟨hc, hs⟩, hk⟩
      exact ⟨hr, o, rfl, hc, hk, hs⟩
    · rintro ⟨hr, _, rfl, hc, hk, hs⟩
      exact ⟨⟨hr, by simp [hc]⟩, ⟨hc, hs⟩, hk⟩

theorem Table.periodless_spec {rep : Report} (h : t.periodless rep.span = some (i, r)) :
    t.record i = some r ∧ ∃ o, r.part = .oven o ∧ r.Periodless o rep :=
  Table.mem_periodless.1 (firstBest_mem h)

/-- A NEIGHBOUR that a preamble reaches is the one of its tag and channel (R47). -/
theorem Table.neighbour_spec {tag : BitVec 16} {ch : Nat} (h : t.neighbour tag ch = some (i, r)) :
    t.record i = some r ∧ r.state ≠ .retired ∧ ∃ a, r.part = .neighbour tag ch a := by
  have hit := List.find?_some h
  obtain ⟨hr, hl⟩ := Table.mem_liveRecords.1 (List.mem_of_find?_eq_some h)
  refine ⟨hr, hl, ?_⟩
  cases hp : r.part with
  | neighbour tag' ch' a =>
    simp only [hp, Bool.and_eq_true, beq_iff_eq] at hit
    exact ⟨a, by rw [hit.1, hit.2]⟩
  | oven o => simp [hp] at hit
  | steady a => simp [hp] at hit

/-- A STEADY record that a steady report reaches is a live one that overlaps it (R49). -/
theorem Table.steadyFor_spec {rep : Report} (h : t.steadyFor rep.span = some (i, r)) :
    t.record i = some r ∧ r.SteadyOver rep := by
  obtain ⟨hm, hit⟩ := List.mem_filter.1 (firstBest_mem h)
  obtain ⟨hr, hl⟩ := Table.mem_liveRecords.1 hm
  simp only [Bool.and_eq_true, beq_iff_eq] at hit
  exact ⟨hr, hl, hit.1, hit.2⟩

/-- What is evicted is a candidate that is not held (R12). -/
theorem Table.evictable_spec (h : t.evictable = some i) :
    ∃ r, t.record i = some r ∧ r.state = .candidate ∧ r.held = false := by
  obtain ⟨⟨j, r⟩, hx, rfl⟩ := Option.map_eq_some_iff.1 h
  obtain ⟨hm, hit⟩ := List.mem_filter.1 (firstBest_mem hx)
  simp only [Bool.and_eq_true, beq_iff_eq, Bool.not_eq_true'] at hit
  exact ⟨r, Table.mem_records.1 hm, hit.1, hit.2⟩

end Sys2Proof.Machine
end

section
/-! What a command can make of the table: the works of the rows on a record, the records that are created, and what
becomes of each slot. The laws of the records, of pinning, of the held record and of the handle are read from it. -/

namespace Sys2Proof.Machine

open Relation (ReflTransGen)

/-! ### The works on a record -/

/-- The works of the rows on a record, in a state with its queued reports, parameters and staged values. Where the row
does not move the cursor the held field stands. -/
inductive Record.Works (s : State) (moves : Bool) : Record → Record → Prop
  | holds {r : Record} (b : Bool) (cursor : moves = true) : Record.Works s moves r { r with held := b }
  | retires {r : Record} (held : r.held = true) : Record.Works s moves r { r with state := .retired }
  | confirms {r : Record} (candidate : r.state = .candidate) (meets : s.params.confirms r = true) :
      Record.Works s moves r r.confirmed
  | tracks {r : Record} {o : OvenPart} {rep : Report} (m : PhaseMatch) (queued : rep ∈ s.intake.queue)
      (part : r.part = .oven o) (rhythmic : r.Rhythmic o rep) :
      Record.Works s moves r { r.countHit with
        part := .oven (o.corrected m rep.duration r.origin), span := r.span.unionWith rep.span }
  | findsPhase {r : Record} {o : OvenPart} (a16 : Time16) (part : r.part = .oven o) :
      Record.Works s moves r { r.countHit with part := .oven { o with a16 := a16, phaseKnown := true } }
  | findsPeriod {r : Record} {o : OvenPart} {p : Nat} (a16 : Time16) (part : r.part = .oven o)
      (lo : 256000 ≤ p) (hi : p ≤ 336000) (unknown : o.periodKnown = false) :
      Record.Works s moves r
        { r.countHit with part := .oven { o with periodKnown := true, p16 := p, a16 := a16 } }
  | reanchors {r : Record} {o : OvenPart} (a16 : Time16) (part : r.part = .oven o)
      (unknown : o.periodKnown = false) :
      Record.Works s moves r { r with part := .oven { o with a16 := a16 } }
  | takesAirtime {r : Record} {rep : Report} (queued : rep ∈ s.intake.queue) :
      Record.Works s moves r
        { r.countHit with part := r.part.mapAirtime (·.hit rep.duration rep.level) }
  | widens {r : Record} {rep : Report} (queued : rep ∈ s.intake.queue) (steady : r.kind = .steady) :
      Record.Works s moves r { ({ r with span := r.span.unionWith rep.span } : Record).countHit with
        part := r.part.mapAirtime (·.hit rep.duration rep.level) }
  | ages {r r' : Record} (p : Params) (blind : Bool) (now16 : Time16) (live : r.state ≠ .retired)
      (aged : r.aged p blind = .stays r') :
      Record.Works s moves r { r' with part := r.part.closed now16 }
  | leaves {r r' : Record} {n : Option NoticeKind} (p : Params) (blind : Bool) (order : BoundaryOrder)
      (now16 : Time16) (held : r.held = true) (aged : r.aged p blind = .leaves r' n) :
      Record.Works s moves r { r' with part := r.part.atRetirement order now16, state := .retired }
  | commits {r q : Record} {c : Cursor} {clamped : Bool} (cursor : s.cursor = some c) (live : r.state ≠ .retired)
      (passes : r.committed c.staged = some (q, clamped)) :
      Record.Works s moves r (s.meetsRebase r c.staged q)
  | pins {r : Record} (counted : r.state = .tracked ∨ r.state = .coasting) :
      Record.Works s moves r { r with origin := .pinned }
  | unpins {r : Record} : Record.Works s moves r { r with origin := .learned }

/-- The records that a report or a PIN creates. -/
inductive Record.Born (s : State) : Record → Prop
  | swept {rep : Report} (seq : BitVec 16) (queued : rep ∈ s.intake.queue) :
      Record.Born s
        { learnedRecord rep.span (.oven (newOvenPart rep s.params.ovenTolerance)) with seq := seq }
  | preamble {rep : Report} (tag : BitVec 16) (seq : BitVec 16) (queued : rep ∈ s.intake.queue) :
      Record.Born s { learnedRecord (channelSpan (derivedChannel rep.centre))
        (.neighbour tag (derivedChannel rep.centre) (newAirtime rep)) with seq := seq }
  | steady {rep : Report} (seq : BitVec 16) (queued : rep ∈ s.intake.queue) :
      Record.Born s { learnedRecord rep.span (.steady (newAirtime rep)) with seq := seq }
  | pinned {q : PinRequest} {r : Record} {clamped : Bool} (seq : BitVec 16)
      (valid : q.record s.params.ovenTolerance = some (r, clamped)) : Record.Born s { r with seq := seq }

/-! ### What the works leave -/

section Leave
variable {s : State} {moves : Bool} {r r' : Record}

/-- What aging has made of the counters and the state when the limits are tested (R18, R19). -/
def Record.turned (r : Record) (blind : Bool) : Record := (r.countSilence blind).coast

/-- Silence and coasting change the two counters and the state, which stays or passes between TRACKED and COASTING. -/
theorem Record.turned_frame (r : Record) (blind : Bool) : ∃ idle streak st,
    r.turned blind = { r with idle := idle, emptyStreak := streak, state := st }
      ∧ (st = r.state ∨ (r.state = .tracked ∧ st = .coasting) ∨ (r.state = .coasting ∧ st = .tracked)) := by
  have counted : ∃ idle streak st, r.countSilence blind = { r with idle := idle, emptyStreak := streak, state := st }
      ∧ (st = r.state ∨ (r.state = .coasting ∧ st = .tracked)) := by
    unfold Record.countSilence
    split
    · exact ⟨_, _, _, rfl, .inl rfl⟩
    split
    · refine ⟨_, _, _, rfl, ?_⟩
      split
      · next h => exact .inr ⟨h, rfl⟩
      · exact .inl rfl
    · exact ⟨_, _, _, rfl, .inl rfl⟩
  obtain ⟨idle, streak, st, h, hst⟩ := counted
  unfold Record.turned Record.coast
  rw [h]
  split
  · next hc =>
    refine ⟨idle, streak, _, rfl, ?_⟩
    rcases hst with rfl | ⟨hr, -⟩
    · exact .inr (.inl ⟨hc.1, rfl⟩)
    · exact .inl hr.symm
  · exact ⟨idle, streak, st, rfl, hst.imp_right .inr⟩

/-- Aging by the turned record: retirement, then a candidate's limit, and otherwise it stays (R20, R21). -/
theorem Record.aged_eq (r : Record) (p : Params) (blind : Bool) : r.aged p blind =
    let q := r.turned blind
    if q.state = .coasting ∧ q.origin = .learned ∧ p.retireLimit q ≤ q.idle then
      .leaves q (some q.kind.retiredNotice)
    else if q.state = .candidate then
      if p.candidateLimit ≤ satInc255 q.age then .leaves { q with age := satInc255 q.age } none
      else .stays { q with age := satInc255 q.age, hitFlag := false }
    else .stays { q with hitFlag := false } := by
  unfold Record.aged
  rw [← Record.turned]
  by_cases hc : (r.turned blind).state = .candidate
  · simp [hc]
  · simp [hc]

/-- A record that stays live keeps the turned state, with its age and a cleared flag (R18 to R21). -/
theorem Record.aged_stays {p : Params} {blind : Bool} (h : r.aged p blind = .stays r') :
    ∃ age, r' = { r.turned blind with age := age, hitFlag := false }
      ∧ (age = (r.turned blind).age ∨ age = satInc255 (r.turned blind).age) := by
  rw [Record.aged_eq] at h
  dsimp only at h
  split at h
  · cases h
  split at h
  · split at h
    · cases h
    · exact ⟨_, (Aged.stays.inj h).symm, .inr rfl⟩
  · exact ⟨_, (Aged.stays.inj h).symm, .inl rfl⟩

/-- A record that leaves the live states is the turned one, with its age (R20, R21). -/
theorem Record.aged_leaves {p : Params} {blind : Bool} {n : Option NoticeKind} (h : r.aged p blind = .leaves r' n) :
    ∃ age, r' = { r.turned blind with age := age }
      ∧ (age = (r.turned blind).age ∨ age = satInc255 (r.turned blind).age) := by
  rw [Record.aged_eq] at h
  dsimp only at h
  split at h
  · exact ⟨_, (Aged.leaves.inj h).1.symm, .inl rfl⟩
  split at h
  · split at h
    · exact ⟨_, (Aged.leaves.inj h).1.symm, .inr rfl⟩
    · cases h
  · cases h

/-- The boundary leaves the kind of a part (R4). -/
@[simp] theorem Part.kind_closed (part : Part) (now16 : Time16) : (part.closed now16).kind = part.kind := by
  cases part <;> rfl

@[simp] theorem Part.kind_atRetirement (part : Part) (order : BoundaryOrder) (now16 : Time16) :
    (part.atRetirement order now16).kind = part.kind := by
  cases part <;> simp only [Part.atRetirement] <;> split <;> simp

/-- The part of a record that retires is the one from before the boundary's own update or from after it. -/
theorem Part.atRetirement_cases (part : Part) (order : BoundaryOrder) (now16 : Time16) :
    part.atRetirement order now16 = part ∨ part.atRetirement order now16 = part.closed now16 := by
  cases part <;> simp only [Part.atRetirement] <;> split <;> simp

@[simp] theorem Part.kind_mapAirtime (part : Part) (f : Airtime → Airtime) :
    (part.mapAirtime f).kind = part.kind := by
  cases part <;> rfl

/-- A commit changes the span and the part, and keeps the kind (R185, R186). -/
theorem Record.committed_frame {g : Staged} {q : Record} {clamped : Bool} (h : r.committed g = some (q, clamped)) :
    q = { r with span := q.span, part := q.part } ∧ q.kind = r.kind := by
  unfold Record.committed at h
  split at h
  · next o ho =>
    obtain ⟨x, -, hx⟩ := Option.map_eq_some_iff.1 h
    cases hx
    exact ⟨rfl, by simp [Record.kind, ho, Part.kind]⟩
  · next a ha =>
    obtain ⟨x, -, hx⟩ := Option.map_eq_some_iff.1 h
    cases hx
    exact ⟨rfl, rfl⟩
  · next tag ch a ha =>
    cases h
    exact ⟨rfl, by simp [Record.kind, ha, Part.kind]⟩

/-- R66 touches the part alone, and keeps its kind. -/
theorem State.meetsRebase_keeps (s : State) (r : Record) (g : Staged) (q : Record) :
    s.meetsRebase r g q = { q with part := (s.meetsRebase r g q).part } ∧ (s.meetsRebase r g q).kind = q.kind := by
  rcases s.meetsRebase_frame r g q with h | ⟨o, new, -, hn, -, -, h⟩
  · rw [h]; exact ⟨rfl, rfl⟩
  · rw [h]; exact ⟨rfl, by simp [Record.kind, hn, Part.kind]⟩

/-- The kind of a record never changes (R4). -/
theorem Record.Works.kind_eq (h : Record.Works s moves r r') : r'.kind = r.kind := by
  cases h with
  | holds | retires | confirms | pins | unpins => rfl
  | takesAirtime | widens => simp [Record.kind]
  | tracks _ _ part | findsPhase _ part | findsPeriod _ part | reanchors _ part =>
    simp [Record.kind, part, Part.kind]
  | ages => simp [Record.kind]
  | leaves => simp [Record.kind]
  | commits _ _ passes => exact (s.meetsRebase_keeps _ _ _).2.trans (Record.committed_frame passes).2

/-- A row that does not move the cursor leaves the held field. -/
theorem Record.Works.held_eq (h : Record.Works s false r r') : r'.held = r.held := by
  cases h with
  | holds _ cursor => cases cursor
  | retires | confirms | takesAirtime | widens | pins | unpins | tracks | findsPhase | findsPeriod | reanchors => rfl
  | ages _ blind _ _ aged =>
    obtain ⟨age, rfl, -⟩ := Record.aged_stays aged
    obtain ⟨idle, streak, st, h, -⟩ := r.turned_frame blind
    rw [h]
  | leaves _ blind _ _ _ aged =>
    obtain ⟨age, rfl, -⟩ := Record.aged_leaves aged
    obtain ⟨idle, streak, st, h, -⟩ := r.turned_frame blind
    rw [h]
  | commits _ _ passes =>
    rw [(s.meetsRebase_keeps _ _ _).1, (Record.committed_frame passes).1]

/-- A record that is RETIRED and was not is held. -/
theorem Record.Works.retired_held (h : Record.Works s false r r') (hr : r.state = .retired → r.held = true)
    (hr' : r'.state = .retired) : r'.held = true := by
  rw [h.held_eq]
  cases h with
  | holds | takesAirtime | widens | pins | unpins | tracks | findsPhase | findsPeriod | reanchors => exact hr hr'
  | confirms => cases hr'
  | retires held | leaves _ _ _ _ held => exact held
  | ages _ blind _ live aged =>
    obtain ⟨age, rfl, -⟩ := Record.aged_stays aged
    obtain ⟨idle, streak, st, h, hst⟩ := r.turned_frame blind
    rw [h] at hr'
    exact absurd (show st = .retired from hr') (by rcases hst with rfl | ⟨-, rfl⟩ | ⟨-, rfl⟩ <;> simp [live])
  | commits _ live passes =>
    rw [(s.meetsRebase_keeps _ _ _).1, (Record.committed_frame passes).1] at hr'
    exact absurd hr' live

/-- What a record counts among the pinned (R3). -/
def Record.pinnedOne (r : Record) : Nat := if r.origin = .pinned ∧ r.state ≠ .retired then 1 else 0

theorem Slot.pinnedOne_some (g : BitVec 4) (r : Record) : Slot.pinnedOne ⟨g, some r⟩ = r.pinnedOne := rfl
theorem Slot.pinnedOne_none (g : BitVec 4) : Slot.pinnedOne ⟨g, none⟩ = 0 := rfl

/-- No work but the pinning makes a record count among the pinned. -/
theorem Record.Works.pinnedOne_le (h : Record.Works s moves r r') (origin : r'.origin = .pinned → r.origin = .pinned) :
    r'.pinnedOne ≤ r.pinnedOne := by
  have of_state (live : r'.state ≠ .retired → r.state ≠ .retired) : r'.pinnedOne ≤ r.pinnedOne := by
    unfold Record.pinnedOne
    by_cases hp : r'.origin = .pinned ∧ r'.state ≠ .retired
    · rw [if_pos hp, if_pos ⟨origin hp.1, live hp.2⟩]
    · rw [if_neg hp]; omega
  apply of_state
  cases h with
  | holds | takesAirtime | widens | pins | unpins | tracks | findsPhase | findsPeriod | reanchors => exact id
  | retires => exact fun h => absurd rfl h
  | leaves => exact fun h => absurd rfl h
  | confirms candidate => exact fun _ => by simp [candidate]
  | ages _ _ _ live => exact fun _ => live
  | commits _ live => exact fun _ => live

end Leave

/-! ### What becomes of a slot -/

/-- What becomes of a slot: a FREE one stays, a record is worked on, freed, created, or evicted for a created one. -/
inductive Slot.Step (s : State) (moves : Bool) (x : Slot) : Slot → Prop
  | free (vacant : x.record = none) : Slot.Step s moves x x
  | kept {r r' : Record} (was : x.record = some r) (works : ReflTransGen (Record.Works s moves) r r') :
      Slot.Step s moves x ⟨x.gen, some r'⟩
  | freed {r r' : Record} (was : x.record = some r) (works : ReflTransGen (Record.Works s moves) r r')
      (held : moves = false → r'.held = false) : Slot.Step s moves x ⟨x.gen + 1, none⟩
  | entered {r r' : Record} (vacant : x.record = none) (born : Record.Born s r)
      (works : ReflTransGen (Record.Works s moves) r r') : Slot.Step s moves x ⟨x.gen, some r'⟩
  | taken {q r r' : Record} (was : x.record = some q) (held : q.held = false) (born : Record.Born s r)
      (works : ReflTransGen (Record.Works s moves) r r') : Slot.Step s moves x ⟨x.gen + 1, some r'⟩

section Step
variable {s : State} {moves : Bool}

theorem Slot.Step.refl (x : Slot) : Slot.Step s moves x x := by
  obtain ⟨g, r⟩ := x
  cases r with
  | none => exact .free rfl
  | some r => exact .kept rfl .refl

/-- A further work on the record of a slot. -/
theorem Slot.Step.work {x y : Slot} {r r' : Record} (h : Slot.Step s moves x y) (hr : y.record = some r)
    (w : Record.Works s moves r r') : Slot.Step s moves x ⟨y.gen, some r'⟩ := by
  cases h with
  | free vacant => simp [vacant] at hr
  | kept was works => cases hr; exact .kept was (works.tail w)
  | freed => cases hr
  | entered vacant born works => cases hr; exact .entered vacant born (works.tail w)
  | taken was held born works => cases hr; exact .taken was held born (works.tail w)

/-- What a command makes of the table: of each slot what `Slot.Step` says, and the counts follow. -/
structure Table.Step (s : State) (moves : Bool) (t t' : Table) : Prop where
  length : t'.slots.length = t.slots.length
  slot : ∀ i, Slot.Step s moves (t.slot i) (t'.slot i)
  counts : t.CountsLaw → t'.CountsLaw
  pinned : t.CountsLaw → t.pinned ≤ 16 → t'.pinned ≤ 16

namespace Table.Step
variable {t t' : Table} {i : Nat}

theorem refl (t : Table) : Table.Step s moves t t := ⟨rfl, fun _ => Slot.Step.refl _, id, fun _ => id⟩

/-- A replaced slot, as the table's own. -/
theorem replace {x : Slot} (h : Table.Step s moves t t') (hi : i < t'.slots.length)
    (hx : Slot.Step s moves (t.slot i) x) (hp : t'.pinned < 16 ∨ x.pinnedOne ≤ (t'.slot i).pinnedOne) :
    Table.Step s moves t (t'.replace i x) where
  length := by rw [Table.length_replace, h.length]
  slot j := by
    by_cases hj : j = i
    · subst hj; rw [Table.slot_replace hi]; exact hx
    · rw [Table.slot_replace_ne hj]; exact h.slot j
  counts law := (h.counts law).replace x hi
  pinned law le := by
    have := h.pinned law le
    have := x.pinnedOne_eq_ite
    rw [Table.pinned_replace]
    split at this <;> omega

/-- A work on the record of a slot. -/
theorem put {r r' : Record} (h : Table.Step s moves t t') (hr : t'.record i = some r)
    (w : Record.Works s moves r r') (hp : t'.pinned < 16 ∨ (r'.origin = .pinned → r.origin = .pinned)) :
    Table.Step s moves t (t'.put i r') := by
  refine h.replace (Table.lt_of_record hr) ((h.slot i).work hr w) (hp.imp_right fun origin => ?_)
  have hs : (t'.slot i).pinnedOne = r.pinnedOne := by
    unfold Slot.pinnedOne
    simp only [show (t'.slot i).record = some r from hr]
    rfl
  rw [Slot.pinnedOne_some, hs]
  exact w.pinnedOne_le origin

/-- A record of the table itself is freed. -/
theorem release {r : Record} (hr : t.record i = some r) (held : moves = false → r.held = false) :
    Table.Step s moves t (t.release i) :=
  (refl t).replace (Table.lt_of_record hr) (.freed hr .refl held) (.inr (by rw [Slot.freed, Slot.pinnedOne_none]; omega))

/-- A pass over every slot. -/
theorem mapSlots {f : Slot → Slot} (hf : ∀ x ∈ t.slots, Slot.Step s moves x (f x))
    (hp : ∀ x ∈ t.slots, (f x).pinnedOne ≤ x.pinnedOne) : Table.Step s moves t (t.mapSlots f) where
  length := by rw [Table.mapSlots_slots, List.length_map]
  slot i := by
    by_cases hi : i < t.slots.length
    · rw [Table.slot_mapSlots hi]
      exact hf _ (by simp [Table.slot, List.getD, hi])
    · have out : (t.mapSlots f).slot i = t.slot i := by
        simp [Table.slot, Table.mapSlots_slots, List.getD, hi]
      rw [out]
      exact .refl _
  counts := Table.CountsLaw.mapSlots f
  pinned law le := (Table.pinned_mapSlots_le law hp).trans le

/-- The sequence counter is no slot's. -/
theorem seqCounter (h : Table.Step s moves t t') (n : BitVec 16) :
    Table.Step s moves t { t' with seqCounter := n } :=
  ⟨h.length, h.slot, h.counts, h.pinned⟩

/-- A created record enters the slot that is taken for it (R12, R14, R25). -/
theorem enter {r : Record} (h : t.takeSlot = some (i, t')) (born : Record.Born s { r with seq := t'.seqCounter })
    (hp : t.pinned < 16 ∨ r.origin = .learned) : Table.Step s moves t (t'.enter i r) := by
  have one : (Record.pinnedOne { r with seq := t'.seqCounter }) = r.pinnedOne := rfl
  have learned (h : r.origin = .learned) : r.pinnedOne = 0 := by simp [Record.pinnedOne, h]
  rcases Table.takeSlot_cases h with ⟨hf, rfl⟩ | ⟨-, he, rfl⟩
  · obtain ⟨hi, hn, -⟩ := Table.lowestFree_spec hf
    refine ((refl t').replace hi (.entered hn born .refl) (hp.imp_right fun h => ?_)).seqCounter _
    rw [Slot.pinnedOne_some, one, learned h]
    omega
  · obtain ⟨q, hq, hc, hu⟩ := Table.evictable_spec he
    have hi := Table.lt_of_record hq
    have gone : (t.release i).slot i = ⟨(t.slot i).gen + 1, none⟩ := Table.slot_release hi
    have step := release (s := s) (moves := moves) hq fun _ => hu
    have base := step.replace (i := i) (x := ⟨(t.slot i).gen + 1, some { r with seq := (t.release i).seqCounter }⟩)
      (by rw [step.length]; exact hi) (.taken hq hu born .refl)
    rw [gone, Slot.pinnedOne_some, Slot.pinnedOne_none, one] at base
    have := base (hp.imp (fun h => ?_) fun h => by rw [learned h])
    · simpa only [Table.enter, Table.put, gone] using this.seqCounter _
    · show t.pinned + (Slot.freed _).pinnedOne - _ < 16
      rw [Slot.freed, Slot.pinnedOne_none]
      omega

/-- A soft reset frees every occupied slot (R28). -/
theorem softReset (t : Table) : Table.Step s true t t.softReset where
  length := by simp [Table.softReset]
  slot i := by
    have hs : t.softReset.slot i = (t.slot i).softReset := by
      by_cases hi : i < t.slots.length
      · simp [Table.softReset, Table.slot, List.getD, hi]
      · simp [Table.softReset, Table.slot, List.getD, hi, Slot.softReset, Slot.reset]
    rw [hs]
    unfold Slot.softReset
    split
    · next r hr => exact .freed hr .refl (by simp)
    · next hr => exact .free hr
  counts := Table.CountsLaw.softReset
  pinned _ _ := by simp [Table.softReset, Table.reset]

end Table.Step

end Step

end Sys2Proof.Machine
end

section
/-! What each row makes of the table: the rows that write it make a `Table.Step`, and every other command leaves it. -/

namespace Sys2Proof.Machine

open Relation (ReflTransGen)

/-! ### The shared acts -/

section Acts
variable {s u : State} {moves : Bool} {t : Table} {i : Nat}

/-- A confirmation check makes a step of the table, with the parameters as they stand (R16). -/
theorem State.confirm_step (h : Table.Step s moves t u.table) (hp : u.params = s.params) (i : Nat) :
    Table.Step s moves t (u.confirm i).table := by
  rcases u.confirm_cases i with ⟨r, hr, hc, hm, he⟩ | he
  · rw [he, State.raise_table]
    exact h.put hr (.confirms hc (hp ▸ hm)) (.inr id)
  · rwa [he]

/-- The held field of a slot, written by a row that moves the cursor (R180). -/
theorem State.setHeld_step (h : Table.Step s true t u.table) (i : Nat) (b : Bool) :
    Table.Step s true t (u.setHeld i b).table := by
  unfold State.setHeld
  split
  · next r hr => exact h.put hr (.holds b rfl) (.inr id)
  · exact h

theorem State.letGo_step (h : Table.Step s true t u.table) : Table.Step s true t u.letGo.table := by
  unfold State.letGo
  split
  · exact State.setHeld_step h _ _
  · exact h

theorem State.hold_step (h : Table.Step s true t u.table) (i : Nat) : Table.Step s true t (u.hold i).table :=
  State.setHeld_step h i true

/-- A creation makes a step of the table (R12 to R14). -/
theorem State.create_step {span : Span} {part : Part} (ht : u.table = t)
    (born : ∀ n, Record.Born s { learnedRecord span part with seq := n }) :
    Table.Step s moves t (u.create span part).table := by
  subst ht
  rcases u.create_cases span part with ⟨i, t', hs, he⟩ | ⟨-, he⟩
  · rw [he]
    exact Table.Step.enter hs (born _) (.inr rfl)
  · rw [he, State.raise_table]
    exact .refl _

end Acts

/-! ### TAKE_REPORT (R39 to R50) -/

section Report
variable {s u : State} {rep : Report} {rest : List Report}

/-- A period that an acquisition finds lies in its range (R9, R63). -/
theorem acquisitionOf_period {n : Int} {p : Nat} (h : acquisitionOf n = .period p) : 256000 ≤ p ∧ p ≤ 336000 := by
  unfold acquisitionOf at h
  have third : roundDiv (n * 16) 3 = (n * 32 + 3) / 6 := by rw [roundDiv]; congr 1; ring
  rw [third] at h
  split at h
  · cases h
  split at h
  · cases h; omega
  split at h
  · cases h
  split at h
  · cases h; omega
  split at h
  · cases h
  split at h
  · cases h; omega
  · cases h

/-- The engine's work on a report makes a step of the table. -/
theorem State.applyReport_step (hq : rep ∈ s.intake.queue) (ht : u.table = s.table) (hp : u.params = s.params)
    (clock : ClockState) : Table.Step s false s.table (u.applyReport rep clock).table := by
  have same : Table.Step s false s.table u.table := ht ▸ .refl _
  have hit {i : Nat} {r r' : Record} (hr : u.table.record i = some r) (w : Record.Works s false r r')
      (ho : r'.origin = r.origin) : Table.Step s false s.table ((u.putRecord i r').confirm i).table :=
    State.confirm_step (u := u.putRecord i r') (same.put hr w (.inr (ho ▸ id))) hp i
  have put {i : Nat} {r r' : Record} (hr : u.table.record i = some r) (w : Record.Works s false r r')
      (ho : r'.origin = r.origin) : Table.Step s false s.table (u.putRecord i r').table :=
    same.put hr w (.inr (ho ▸ id))
  unfold State.applyReport
  split
  · unfold State.applySwept
    split
    · next i r o m h =>
      obtain ⟨hr, part, rhythmic⟩ := Table.matched_spec h
      exact hit hr (.tracks m hq part rhythmic) rfl
    split
    · exact same
    split
    · next i r o h =>
      obtain ⟨hr, part, -⟩ := Table.phaseless_spec h
      exact put hr (.findsPhase _ part) rfl
    split
    · next i r h =>
      obtain ⟨hr, o, part, -, unknown, -⟩ := Table.periodless_spec h
      rw [Record.oven?_of_part part]
      dsimp only
      unfold State.acquirePeriod
      split
      · exact same
      · next p hp' =>
        obtain ⟨lo, hi⟩ := acquisitionOf_period hp'
        exact hit hr (.findsPeriod _ part lo hi unknown) rfl
      · exact put hr (.reanchors _ part unknown) rfl
    · exact State.create_step ht fun n => hp ▸ .swept n hq
  · next tag _ =>
    unfold State.applyPreamble
    dsimp only
    split
    · next i r h => exact hit (Table.neighbour_spec h).1 (.takesAirtime hq) rfl
    · exact State.create_step ht fun n => .preamble tag n hq
  · unfold State.applySteady
    split
    · next i r h =>
      obtain ⟨hr, -, steady, -⟩ := Table.steadyFor_spec h
      exact hit hr (.widens hq steady) rfl
    · exact State.create_step ht fun n => .steady n hq

end Report

/-! ### EPOCH_BOUNDARY (R17 to R21, R65, R74) -/

/-- The boundary's work on a slot is a step of it, and pins nothing. -/
theorem Slot.atBoundary_step {s : State} (p : Params) (blind : Bool) (now16 : Time16) (order : BoundaryOrder) (x : Slot) :
    Slot.Step s false x (Slot.atBoundary p blind now16 order x).1
      ∧ (Slot.atBoundary p blind now16 order x).1.pinnedOne ≤ x.pinnedOne := by
  obtain ⟨g, rec⟩ := x
  cases rec with
  | none => exact ⟨.refl _, le_rfl⟩
  | some r =>
    simp only [Slot.atBoundary]
    split
    · exact ⟨.refl _, le_rfl⟩
    · next live =>
      split
      · next r' h =>
        obtain ⟨age, hr', -⟩ := Record.aged_stays h
        obtain ⟨idle, streak, st, ht, -⟩ := r.turned_frame blind
        have w : Record.Works s false r _ := .ages p blind now16 live h
        refine ⟨.kept rfl (.single w), w.pinnedOne_le fun ho => ?_⟩
        rw [hr', ht] at ho
        exact ho
      · next r' n h =>
        obtain ⟨age, hr', -⟩ := Record.aged_leaves h
        obtain ⟨idle, streak, st, ht, -⟩ := r.turned_frame blind
        have held : r'.held = r.held := by rw [hr', ht]
        unfold Slot.retire
        dsimp only
        split
        · next hh =>
          exact ⟨.kept rfl (.single (.leaves p blind order now16 (held ▸ hh) h)), by
            rw [Slot.pinnedOne_some]; simp [Record.pinnedOne]⟩
        · next hh => exact ⟨.freed rfl .refl fun _ => by simpa [held] using hh, Nat.zero_le _⟩

/-! ### The requests on records (chapter 10) -/

section Requests
variable {s : State}

/-- A retired slot keeps a held record in RETIRED and frees another (R22). -/
theorem Table.retire_step {t : Table} {i : Nat} {r : Record} (hr : t.record i = some r) :
    Table.Step s false t (t.replace i (t.slot i).retire) := by
  have hs : (t.slot i).record = some r := hr
  unfold Slot.retire
  rw [hs]
  dsimp only
  split
  · next hh => exact (Table.Step.refl t).put hr (.retires hh) (.inr id)
  · next hh => exact Table.Step.release hr fun _ => by simpa using hh

/-- A confirmed candidate stands in its slot as TRACKED. -/
theorem State.record_confirm {i : Nat} {r : Record} (hr : s.table.record i = some r) (hc : r.state = .candidate)
    (hm : s.params.confirms r = true) : (s.confirm i).table.record i = some r.confirmed := by
  rw [State.confirm_of_record hr, if_pos ⟨hc, hm⟩, State.raise_table, State.table_putRecord, Table.record,
    Table.slot_put (Table.lt_of_record hr)]

/-- A record of confirmed state is one of known period (R15). -/
theorem Params.known_of_confirms {p : Params} {r : Record} {o : OvenPart} (h : p.confirms r = true)
    (part : r.part = .oven o) : o.periodKnown = true := by
  rw [Params.confirms, part] at h
  simp only [Bool.and_eq_true] at h
  exact h.1

/-- A closed commit makes a step of the table, and another status leaves it (R184 to R186). -/
theorem State.closeCommit_step {c : Cursor} (hc : s.cursor = some c) :
    Table.Step s true s.table (s.closeCommit c).state.table := by
  unfold State.closeCommit
  split
  · exact .refl _
  · next r hr =>
    split
    · exact Table.Step.release hr (by simp)
    · next live =>
      split
      · exact .refl _
      · next q clamped h =>
        have origin : (s.meetsRebase r c.staged q).origin = r.origin := by
          rw [(s.meetsRebase_keeps _ _ _).1, (Record.committed_frame h).1]
        have step : Table.Step s true s.table (s.putRecord c.slot (s.meetsRebase r c.staged q)).table :=
          (Table.Step.refl _).put hr (.commits hc live h) (.inr (origin ▸ id))
        refine State.letGo_step ?_
        split
        · exact State.confirm_step step rfl _
        · exact step

theorem State.closeDiscard_step {c : Cursor} (hc : s.cursor = some c) :
    Table.Step s true s.table (s.closeDiscard c).state.table := by
  unfold State.closeDiscard
  split
  · next h =>
    simp only [State.holdsRetired, State.heldRecord, hc] at h
    cases hr : s.table.record c.slot with
    | none => simp [hr] at h
    | some r => exact Table.Step.release hr (by simp)
  · exact State.letGo_step (.refl _)

theorem State.openNext_step {u : State} {t : Table} (h : Table.Step s true t u.table) (held : Option Nat) (status : Byte) :
    Table.Step s true t (u.openNext held status).table := by
  unfold State.openNext
  split
  · exact State.hold_step h _
  · exact h

end Requests

/-! ### Every command -/

/-- The commands that may move the cursor: OPEN, CLOSE, NEXT and RESET. -/
def movesCursor : Instr → Bool
  | .openRecord | .closeRecord | .nextRecord | .reset => true
  | _ => false

section Rows
variable {s t : State}

theorem execTakeReport_step (h : execTakeReport s = .next t) : Table.Step s false s.table t.table := by
  unfold execTakeReport at h
  split at h
  · next rep rest _ hq =>
    cases h
    exact State.applyReport_step (s := s) (u := s.taken rest) (by simp [hq]) rfl rfl _
  · cases h
    exact .refl _

theorem execEpochBoundary_step (h : execEpochBoundary s = .next t) : Table.Step s false s.table t.table := by
  cases h
  rcases s.atInstant_cases s.timebase.untilBoundary State.boundaryWork with ⟨-, h⟩ | ⟨-, h⟩
  · obtain ⟨ns, h'⟩ := State.boundaryWork_frame { s with timebase := s.timebase.advance s.timebase.untilBoundary }
    rw [h, h']
    exact Table.Step.mapSlots (fun x _ => (x.atBoundary_step _ _ _ _).1) (fun x _ => (x.atBoundary_step (s := s) _ _ _ _).2)
  · rw [h]
    exact .refl _

/-- An installed record has what a PIN gives it (R25). -/
theorem PinRequest.record_frame {q : PinRequest} {tolerance : Nat} {r : Record} {clamped : Bool}
    (h : q.record tolerance = some (r, clamped)) : ∃ span part, r = pinnedRecord span part := by
  unfold PinRequest.record at h
  split at h
  · cases h
  · obtain ⟨x, -, hx⟩ := Option.map_eq_some_iff.1 h
    cases hx
    exact ⟨_, _, rfl⟩
  · obtain ⟨x, -, hx⟩ := Option.map_eq_some_iff.1 h
    cases hx
    exact ⟨_, _, rfl⟩
  · split at h
    · cases h
      exact ⟨_, _, rfl⟩
    · cases h

theorem execPin_step (h : execPin s = .next t) : Table.Step s false s.table t.table := by
  unfold execPin at h
  split at h
  · cases h; exact .refl _
  split at h
  · cases h; exact .refl _
  next r clamped valid =>
  split at h
  · cases h; exact .refl _
  next room =>
  split at h
  · cases h; exact .refl _
  next i t' hs =>
  cases h
  exact Table.Step.enter hs (.pinned _ valid) (.inl (not_le.1 room))

theorem execRetire_step (h : execRetire s = .next t) : Table.Step s false s.table t.table := by
  unfold execRetire at h
  split at h
  · split at h
    · cases h; exact .refl _
    · next i r hr =>
      cases h
      obtain ⟨-, -, -, occupied, -⟩ := Table.resolve_record hr
      exact Table.retire_step occupied
  · cases h; exact .refl _

/-- SET ORIGIN pins a TRACKED or COASTING record, or one that it has confirmed (R26, R27). -/
theorem State.pinRecord_step {i : Nat} {r : Record} {u : State} (hr : s.table.record i = some r)
    (live : r.state ≠ .retired) (h : s.pinRecord i r = .ok u) : Table.Step s false s.table u.table := by
  unfold State.pinRecord at h
  split at h
  · cases h; exact .refl _
  next learned =>
  split at h
  · cases h
  next room =>
  split at h
  · cases h
  next meets =>
  cases h
  by_cases hc : r.state = .candidate
  · have hm : s.params.confirms r = true := by
      by_contra hm
      exact meets ⟨hc, by simpa using hm⟩
    have step := State.confirm_step (moves := false) (Table.Step.refl (s := s) s.table) rfl i
    have hr' := State.record_confirm hr hc hm
    have room' : (s.confirm i).table.pinned < 16 := by
      rw [State.confirm_of_record hr, if_pos ⟨hc, hm⟩, State.raise_table, State.table_putRecord, Table.put,
        Table.pinned_replace, Slot.pinnedOne_some]
      have : r.confirmed.pinnedOne = 0 := if_neg fun h => learned h.1
      have : s.table.pinned < 16 := not_le.1 room
      omega
    simp only [hc, if_true]
    exact step.put hr' (.pins (.inl rfl)) (.inl room')
  · have same : s.confirm i = s := State.confirm_eq_self hr (.inl hc)
    rw [if_neg hc, same]
    refine (Table.Step.refl _).put hr (.pins ?_) (.inl (not_le.1 room))
    cases hs : r.state with
    | candidate => exact absurd hs hc
    | retired => exact absurd hs live
    | tracked => exact .inl rfl
    | coasting => exact .inr rfl

theorem execSetOrigin_step (h : execSetOrigin s = .next t) : Table.Step s false s.table t.table := by
  unfold execSetOrigin at h
  split at h
  swap
  · cases h; exact .refl _
  split at h
  · cases h; exact .refl _
  split at h
  · cases h; exact .refl _
  next i r resolved =>
  obtain ⟨-, -, -, hr, live⟩ := Table.resolve_record resolved
  split at h
  · cases h; exact .refl _
  next u hu =>
  cases h
  show Table.Step s false s.table u.table
  split at hu
  · exact State.pinRecord_step hr live hu
  · cases hu
    unfold State.unpinRecord
    split
    · exact .refl _
    · exact (Table.Step.refl _).put hr .unpins (.inr (by simp))

theorem execOpenRecord_step (h : execOpenRecord s = .next t) : Table.Step s true s.table t.table := by
  unfold execOpenRecord at h
  split at h
  swap
  · cases h; exact .refl _
  split at h
  · cases h; exact .refl _
  split at h
  · cases h; exact .refl _
  · cases h
    exact State.hold_step (State.letGo_step (.refl _)) _

theorem execCloseRecord_step (h : execCloseRecord s = .next t) : Table.Step s true s.table t.table := by
  unfold execCloseRecord at h
  split at h
  swap
  · cases h; exact .refl _
  split at h
  · cases h; exact .refl _
  · cases h; exact .refl _
  next commit c _ hc =>
  cases h
  cases commit
  · exact State.closeDiscard_step hc
  · exact State.closeCommit_step hc

theorem execNextRecord_step (h : execNextRecord s = .next t) : Table.Step s true s.table t.table := by
  unfold execNextRecord at h
  split at h
  swap
  · cases h; exact .refl _
  split at h
  · cases h
    exact State.openNext_step (.refl _) _ _
  next c hc =>
  dsimp only at h
  split at h
  · cases h; exact .refl _
  · cases h
    exact State.openNext_step (State.closeCommit_step hc) _ _

theorem execReset_step (h : execReset s = .next t) : Table.Step s true s.table t.table := by
  unfold execReset at h
  split at h
  · cases h; exact .softReset _
  · cases h; exact .refl _

/-- Every command but POWER_ON_RESET makes a step of the table. -/
theorem exec_table_step {c : Instr} (hc : c ≠ .powerOnReset) (h : exec c s = .next t) :
    Table.Step s (movesCursor c) s.table t.table := by
  by_cases hb : Block.table ∈ blocksOf c
  case neg => rw [(exec_frame h).table hb]; exact .refl _
  cases c
  case powerOnReset => exact absurd rfl hc
  case takeReport => exact execTakeReport_step h
  case epochBoundary => exact execEpochBoundary_step h
  case pin => exact execPin_step h
  case setOrigin => exact execSetOrigin_step h
  case retire => exact execRetire_step h
  case openRecord => exact execOpenRecord_step h
  case closeRecord => exact execCloseRecord_step h
  case nextRecord => exact execNextRecord_step h
  case reset => exact execReset_step h
  all_goals exact absurd hb (by simp [blocksOf])

end Rows

end Sys2Proof.Machine
end

section
/-! The laws of the records (R7, R8, R9, R70, R74): each work on a record and each creation keeps them, so every command
does, with the queued reports and the staged values that feed them. -/

namespace Sys2Proof.Machine

open Relation (ReflTransGen)

/-! ### A law of the records, from the works to the table -/

section Law
variable {s : State} {moves : Bool} {t t' : Table} {P : Record → Prop}

theorem ReflTransGen.keeps (works : ∀ r r', P r → Record.Works s moves r r' → P r') {r r' : Record}
    (h : ReflTransGen (Record.Works s moves) r r') (hr : P r) : P r' := by
  induction h with
  | refl => exact hr
  | tail _ w ih => exact works _ _ ih w

/-- A slot of the table by its number. -/
theorem Table.mem_slots {x : Slot} (h : x ∈ t.slots) : ∃ i < t.slots.length, t.slot i = x := by
  obtain ⟨i, hi, rfl⟩ := List.getElem_of_mem h
  exact ⟨i, hi, by simp [Table.slot, List.getD, hi]⟩

theorem Table.slot_mem {i : Nat} (h : i < t.slots.length) : t.slot i ∈ t.slots := by
  simp [Table.slot, List.getD, h]

/-- A law that the works keep and that created records meet holds of every record after a step of the table. -/
theorem Table.Step.all (h : Table.Step s moves t t') (works : ∀ r r', P r → Record.Works s moves r r' → P r')
    (born : ∀ r, Record.Born s r → P r) (all : ∀ x ∈ t.slots, ∀ r ∈ x.record, P r) :
    ∀ x ∈ t'.slots, ∀ r ∈ x.record, P r := by
  intro x hx r hr
  obtain ⟨i, hi, rfl⟩ := Table.mem_slots hx
  have mem : t.slot i ∈ t.slots := Table.slot_mem (h.length ▸ hi)
  have step := h.slot i
  revert step hr
  generalize t'.slot i = y
  intro hr step
  cases step with
  | free => exact all _ mem r hr
  | kept was w => cases hr; exact ReflTransGen.keeps works w (all _ mem _ was)
  | freed => cases hr
  | entered _ b w => cases hr; exact ReflTransGen.keeps works w (born _ b)
  | taken _ _ b w => cases hr; exact ReflTransGen.keeps works w (born _ b)

end Law

/-! ### Queued reports (R30, R31, R33) -/

theorem byte_toNat_lt (b : Byte) : b.toNat < 256 := b.isLt

/-- R31's span of a clamped centre and width is lawful: the edges lie a width apart, or one more for an odd width. -/
theorem reportSpan_lawful {centre width : Nat} (hc : centre ≤ 100) (hw : width ≤ 40) :
    (reportSpan centre width).Lawful := by
  simp only [Span.Lawful, reportSpan, clampInt, ceilDiv]
  omega

/-- A stamped report is lawful. -/
theorem stamp_lawful {frame : List Byte} {now : Time} {r : Report}
    (h : (burstReportOf frame).bind (fun b => b.stamp now) = some r) : r.Lawful := by
  obtain ⟨b, hb, hs⟩ := Option.bind_eq_some_iff.1 h
  have duration : b.duration ≤ 65535 := by
    unfold burstReportOf at hb
    split at hb
    · next d1 d0 _ _ _ _ _ _ =>
      cases hb
      show valueOf [d1, d0] ≤ 65535
      rw [valueOf_pair]
      have := byte_toNat_lt d1
      have := byte_toNat_lt d0
      omega
    · cases hb
  unfold BurstReport.stamp at hs
  split at hs
  · cases hs
  split at hs
  · cases hs
  next positive =>
  cases hs
  have centre : clampNat 0 100 b.centre ≤ 100 := by unfold clampNat; omega
  have width : clampNat 1 40 b.width ≤ 40 := by unfold clampNat; omega
  refine ⟨Nat.one_le_iff_ne_zero.2 positive, duration, centre, reportSpan_lawful centre width, ?_⟩
  simp only [clampInt]
  omega

/-- The queue after a report is offered: one more, or an overflow that leaves it (R33, R34). -/
theorem State.offerReport_queue (s : State) (r : Report) :
    (s.intake.queue.length < 32 ∧ (s.offerReport r).intake.queue = s.intake.queue ++ [r])
      ∨ (32 ≤ s.intake.queue.length ∧ (s.offerReport r).intake.queue = s.intake.queue) := by
  unfold State.offerReport reportCapacity
  split
  · next h => exact .inl ⟨h, rfl⟩
  · next h => exact .inr ⟨not_lt.1 h, by rw [State.raise_intake]⟩

/-- What a command makes of the report queue: it stays, takes a lawful report at its tail while it holds fewer than 32,
gives its head, or is cleared. -/
theorem exec_reports {c : Instr} {s t : State} (h : exec c s = .next t) :
    t.intake.queue = s.intake.queue
      ∨ (s.intake.queue.length < 32 ∧ ∃ r, r.Lawful ∧ t.intake.queue = s.intake.queue ++ [r])
      ∨ (∃ r, s.intake.queue = r :: t.intake.queue) ∨ t.intake.queue = [] := by
  by_cases hb : Block.intake ∈ blocksOf c
  case neg => exact .inl (by rw [(exec_frame h).intake hb])
  cases c
  case powerOnReset => cases h; exact .inr (.inr (.inr rfl))
  case reportArrival frame =>
    change execReportArrival frame s = .next t at h
    unfold execReportArrival at h
    split at h
    · next r hr =>
      cases h
      rcases s.offerReport_queue r with ⟨room, hq⟩ | ⟨-, hq⟩
      · exact .inr (.inl ⟨room, r, stamp_lawful hr, hq⟩)
      · exact .inl hq
    · cases h; exact .inl rfl
  case detectorReadyDeasserted => cases h; exact .inl rfl
  case detectorReadyAsserted => cases h; exact .inl rfl
  case takeReport =>
    change execTakeReport s = .next t at h
    unfold execTakeReport at h
    split at h
    · next rep rest _ hq =>
      cases h
      obtain ⟨table, notices, he⟩ := State.applyReport_writes (s.taken rest) rep s.timebase.clock
      exact .inr (.inr (.inl ⟨rep, by rw [hq]; exact congrArg (rep :: ·) (congrArg (·.intake.queue) he).symm⟩))
    · cases h; exact .inl rfl
  case epochBoundary =>
    cases h
    rcases s.atInstant_cases s.timebase.untilBoundary State.boundaryWork with ⟨-, h⟩ | ⟨-, h⟩
    · obtain ⟨ns, h'⟩ := State.boundaryWork_frame { s with timebase := s.timebase.advance s.timebase.untilBoundary }
      exact .inl (by rw [h, h']; rfl)
    · exact .inl (by rw [h])
  case reset =>
    change execReset s = .next t at h
    unfold execReset at h
    split at h
    · cases h; exact .inr (.inr (.inr rfl))
    · cases h; exact .inl rfl
  all_goals exact absurd hb (by simp [blocksOf])

/-- Every command keeps the queued reports lawful. -/
theorem exec_keeps_reports {c : Instr} {s t : State} (h : exec c s = .next t)
    (law : ∀ r ∈ s.intake.queue, r.Lawful) : ∀ r ∈ t.intake.queue, r.Lawful := by
  rcases exec_reports h with hq | ⟨-, r, hr, hq⟩ | ⟨r, hq⟩ | hq
  · rwa [hq]
  · rw [hq]
    intro x hx
    rcases List.mem_append.1 hx with hx | hx
    · exact law x hx
    · rw [List.mem_singleton.1 hx]; exact hr
  · exact fun x hx => law x (hq ▸ List.mem_cons_of_mem _ hx)
  · simp [hq]

/-! ### Staged values (R183) -/

theorem Staged.empty_lawful : Staged.empty.Lawful := by simp [Staged.Lawful, Staged.empty]

/-- A value clamped to its field's range keeps the staged values lawful. -/
theorem Staged.stage_lawful {g : Staged} (law : g.Lawful) (f : EditField) (v : Nat) :
    (g.stage f (clampNat f.range.1 f.range.2 v)).Lawful := by
  obtain ⟨lo, hi, p, d, w, ch, tag⟩ := law
  cases f with
  | spanLow => exact ⟨by simp [Staged.stage, EditField.range, clampNat], hi, p, d, w, ch, tag⟩
  | spanHigh => exact ⟨lo, by simp [Staged.stage, EditField.range, clampNat], p, d, w, ch, tag⟩
  | p => exact ⟨lo, hi, by simp [Staged.stage, EditField.range, clampNat], d, w, ch, tag⟩
  | d => exact ⟨lo, hi, p, by simp [Staged.stage, EditField.range, clampNat], w, ch, tag⟩
  | w => exact ⟨lo, hi, p, d, by simp [Staged.stage, EditField.range, clampNat], ch, tag⟩
  | channel => exact ⟨lo, hi, p, d, w, by simp [Staged.stage, EditField.range, clampNat], tag⟩
  | tag => exact ⟨lo, hi, p, d, w, ch, by simp [Staged.stage, EditField.range, clampNat]⟩

/-- A record let go leaves the cursor closed. -/
@[simp] theorem State.letGo_cursor (s : State) : s.letGo.cursor = none := by
  unfold State.letGo
  split
  · rfl
  · next h => exact h

/-- The cursor after a commit: it stays where the commit is refused, and is closed otherwise (R184). -/
theorem State.closeCommit_cursor (s : State) (c : Cursor) :
    ((s.closeCommit c).status = .invalid ∧ (s.closeCommit c).state = s) ∨ (s.closeCommit c).state.cursor = none := by
  unfold State.closeCommit
  split
  · exact .inr rfl
  split
  · exact .inr rfl
  split
  · exact .inl ⟨rfl, rfl⟩
  · exact .inr (State.letGo_cursor _)

theorem State.closeDiscard_cursor (s : State) (c : Cursor) : (s.closeDiscard c).state.cursor = none := by
  unfold State.closeDiscard
  split
  · rfl
  · exact State.letGo_cursor _

/-- The slot that NEXT finds holds a live record (R187). -/
theorem Table.firstLive_spec {t : Table} {order : List Nat} {i : Nat} (h : t.firstLive order = some i) :
    ∃ r, t.record i = some r ∧ r.state ≠ .retired := by
  have hp := List.find?_some h
  cases hr : t.record i with
  | none => simp [hr] at hp
  | some r => exact ⟨r, rfl, by simpa [hr, Record.live_iff] using hp⟩

/-- NEXT leaves the cursor, or opens it on a slot of the table with nothing staged. -/
theorem State.openNext_cursor (s : State) (held : Option Nat) (status : Byte) :
    (s.openNext held status).cursor = s.cursor
      ∨ ∃ i < s.table.slots.length, (s.openNext held status).cursor = some ⟨i, (s.table.slot i).gen, Staged.empty⟩ := by
  unfold State.openNext
  split
  · next i hi =>
    obtain ⟨r, hr, -⟩ := Table.firstLive_spec hi
    exact .inr ⟨i, Table.lt_of_record hr, rfl⟩
  · exact .inl rfl

/-- What a command makes of the cursor: it stays, closes, opens on a slot of the table with nothing staged, or
takes a clamped value. -/
theorem exec_cursor {c : Instr} {s t : State} (h : exec c s = .next t) :
    t.cursor = s.cursor ∨ t.cursor = none ∨ (∃ i g, i < s.table.slots.length ∧ t.cursor = some ⟨i, g, Staged.empty⟩)
      ∨ ∃ k f v, s.cursor = some k
          ∧ t.cursor = some { k with staged := k.staged.stage f (clampNat f.range.1 f.range.2 v) } := by
  by_cases hb : Block.cursor ∈ blocksOf c
  case neg => exact .inl ((exec_frame h).cursor hb)
  cases c
  case powerOnReset => cases h; exact .inr (.inl rfl)
  case reset =>
    change execReset s = .next t at h
    unfold execReset at h
    split at h
    · cases h; exact .inr (.inl rfl)
    · cases h; exact .inl rfl
  case openRecord =>
    change execOpenRecord s = .next t at h
    unfold execOpenRecord at h
    split at h
    swap
    · cases h; exact .inl rfl
    split at h
    · cases h; exact .inl rfl
    next i r hi =>
    obtain ⟨-, -, -, hr, -⟩ := Table.resolve_record hi
    split at h
    · cases h; exact .inl rfl
    · cases h; exact .inr (.inr (.inl ⟨i, _, Table.lt_of_record hr, rfl⟩))
  case editField =>
    change execEditField s = .next t at h
    unfold execEditField at h
    split at h
    swap
    · cases h; exact .inl rfl
    split at h
    · cases h; exact .inl rfl
    next f _ =>
    split at h
    · cases h; exact .inl rfl
    next k hk =>
    split at h
    · cases h; exact .inl rfl
    · cases h; exact .inr (.inr (.inr ⟨k, f, _, hk, rfl⟩))
  case closeRecord =>
    change execCloseRecord s = .next t at h
    unfold execCloseRecord at h
    split at h
    swap
    · cases h; exact .inl rfl
    split at h
    · cases h; exact .inl rfl
    · cases h; exact .inl rfl
    next commit k _ hk =>
    cases h
    cases commit
    · exact .inr (.inl (s.closeDiscard_cursor k))
    · rcases s.closeCommit_cursor k with ⟨-, he⟩ | he
      · exact .inl (show (s.closeCommit k).state.cursor = s.cursor by rw [he])
      · exact .inr (.inl he)
  case nextRecord =>
    change execNextRecord s = .next t at h
    unfold execNextRecord at h
    split at h
    swap
    · cases h; exact .inl rfl
    split at h
    · cases h
      rcases s.openNext_cursor none _ with he | ⟨i, hi, he⟩
      · exact .inl he
      · exact .inr (.inr (.inl ⟨i, _, hi, he⟩))
    next k hk =>
    dsimp only at h
    split at h
    · cases h; exact .inl rfl
    next passes =>
    cases h
    have closed := (s.closeCommit_cursor k).resolve_left (fun h => passes h.1)
    rcases (s.closeCommit k).state.openNext_cursor (some k.slot) (resultByte _ _) with he | ⟨i, hi, he⟩
    · exact .inr (.inl (he.trans closed))
    · exact .inr (.inr (.inl ⟨i, _, (State.closeCommit_step hk).length ▸ hi, he⟩))
  all_goals exact absurd hb (by simp [blocksOf])

theorem exec_keeps_staged {c : Instr} {s t : State} (h : exec c s = .next t)
    (law : ∀ k ∈ s.cursor, k.staged.Lawful) : ∀ k ∈ t.cursor, k.staged.Lawful := by
  rcases exec_cursor h with he | he | ⟨i, g, -, he⟩ | ⟨k, f, v, hk, he⟩
  · rwa [he]
  · simp [he]
  · rintro _ hk
    cases he.symm.trans hk
    exact Staged.empty_lawful
  · rintro _ hk'
    cases he.symm.trans hk'
    exact Staged.stage_lawful (law k hk) f v

end Sys2Proof.Machine
end

section
/-! The laws of the records' spans, oven parts and airtime fields (R8, R9, R46, R70, R74): every work on a record keeps
them, every created record meets them, and so every step keeps them. -/

namespace Sys2Proof.Machine

open Relation (ReflTransGen)

/-! ### The span (R8) -/

/-- Settles O13: the union is at most 40 wide, or its far edge from the extended one is moved inward; two lawful spans
cannot both extend each other by as much. -/
theorem spanUnionKeepsTheExtendedEdge : Obligations.SpanUnionKeepsTheExtendedEdge := by
  rintro ⟨xl, xh⟩ ⟨yl, yh⟩ ⟨hx1, hx2, hx3⟩ ⟨hy1, hy2, hy3⟩
  simp only [Span.unionWith, Span.Lawful] at *
  refine ⟨?_, fun h => if_pos h, fun h => ?_⟩
  · split
    · dsimp only; omega
    · split <;> dsimp only <;> omega
  · rw [if_neg (by omega)]
    split
    · exact .inl ⟨by omega, by omega, by simp; omega⟩
    · exact .inr ⟨by omega, by omega, by simp; omega⟩

theorem Span.unionWith_lawful {x y : Span} (hx : x.Lawful) (hy : y.Lawful) : (x.unionWith y).Lawful :=
  (spanUnionKeepsTheExtendedEdge x y hx hy).1

theorem channelSpan_lawful {ch : Nat} (hi : ch ≤ 14) : (channelSpan ch).Lawful := by
  simp only [channelSpan, channelCentre, Span.Lawful]
  split <;> omega

/-- A committed span is lawful where the record's span and the staged edges are (R185). -/
theorem Span.committed_lawful {x y : Span} {lo hi : Option Nat} {clamped : Bool} (h : x.committed lo hi = some (y, clamped))
    (hx : x.Lawful) (hhi : ∀ v ∈ hi, v ≤ 100) : y.Lawful := by
  have top : hi.getD x.hi ≤ 100 := by
    cases hi with
    | none => exact hx.2.1
    | some v => exact hhi v rfl
  unfold Span.committed at h
  dsimp only at h
  obtain ⟨hx1, hx2, hx3⟩ := hx
  split at h
  · cases h; exact ⟨hx1, hx2, hx3⟩
  split at h
  · cases h
  split at h
  · cases h; dsimp only [Span.Lawful]; omega
  split at h <;> cases h <;> dsimp only [Span.Lawful] <;> omega

/-- A PIN's span is lawful (R189). -/
theorem pinSpan_lawful {lo hi : Nat} {x : Span} {clamped : Bool} (h : pinSpan lo hi = some (x, clamped)) : x.Lawful := by
  have top : (givenIn 0 100 hi).value ≤ 100 := by simp only [givenIn, clampNat]; omega
  unfold pinSpan at h
  dsimp only at h
  split at h
  · cases h
  split at h <;> cases h <;> dsimp only [Span.Lawful] <;> omega

@[simp] theorem Part.channel?_mapAirtime (part : Part) (f : Airtime → Airtime) :
    (part.mapAirtime f).channel? = part.channel? := by
  cases part <;> rfl

@[simp] theorem Part.channel?_closed (part : Part) (now16 : Time16) : (part.closed now16).channel? = part.channel? := by
  cases part <;> rfl

@[simp] theorem Part.channel?_atRetirement (part : Part) (order : BoundaryOrder) (now16 : Time16) :
    (part.atRetirement order now16).channel? = part.channel? := by
  rcases part.atRetirement_cases order now16 with h | h <;> simp [h]

/-- A record with a lawful span and no channel of its own. -/
theorem Record.spanLawful_of_channel?_eq_none {r : Record} (h : r.span.Lawful) (hc : r.part.channel? = none) :
    r.SpanLawful := ⟨h, by simp [hc]⟩

/-- The record of a channel has the channel's span. -/
theorem Record.spanLawful_of_channel {r : Record} {ch : Nat} (hc : r.part.channel? = some ch) (lo : 1 ≤ ch) (hi : ch ≤ 14)
    (hs : r.span = channelSpan ch) : r.SpanLawful :=
  ⟨hs ▸ channelSpan_lawful hi, fun ch' h' => by cases hc.symm.trans h'; exact ⟨lo, hi, hs⟩⟩

/-- A commit leaves a lawful span, that of the channel for a NEIGHBOUR (R185). -/
theorem Record.committed_spanLawful {r q : Record} {g : Staged} {clamped : Bool} (law : r.SpanLawful) (staged : g.Lawful)
    (h : r.committed g = some (q, clamped)) : q.SpanLawful := by
  obtain ⟨-, shi, -, -, -, sch, -⟩ := staged
  unfold Record.committed at h
  split at h
  · obtain ⟨x, hx, he⟩ := Option.map_eq_some_iff.1 h
    cases he
    exact Record.spanLawful_of_channel?_eq_none (Span.committed_lawful hx law.1 shi) rfl
  · next a ha =>
    obtain ⟨x, hx, he⟩ := Option.map_eq_some_iff.1 h
    cases he
    exact Record.spanLawful_of_channel?_eq_none (Span.committed_lawful hx law.1 shi) (by simp [ha, Part.channel?])
  · next tag ch a ha =>
    cases h
    cases hc : g.channel with
    | none =>
      obtain ⟨lo, hi, hs⟩ := law.2 ch (by simp [ha, Part.channel?])
      exact Record.spanLawful_of_channel (ch := ch) rfl lo hi hs
    | some ch' =>
      obtain ⟨lo, hi⟩ := sch ch' hc
      exact Record.spanLawful_of_channel (ch := ch') rfl lo hi rfl

/-- R66 leaves the span and the channel. -/
theorem State.meetsRebase_spanLawful {s : State} {r q : Record} {g : Staged} (h : q.SpanLawful) :
    (s.meetsRebase r g q).SpanLawful := by
  rcases s.meetsRebase_frame r g q with e | ⟨o, new, -, hn, -, -, e⟩
  · rwa [e]
  · rw [e]
    exact Record.spanLawful_of_channel?_eq_none h.1 rfl

section Works
variable {s : State} {moves : Bool} {r r' : Record}

theorem Record.turned_span (r : Record) (blind : Bool) : (r.turned blind).span = r.span := by
  obtain ⟨_, _, _, e, -⟩ := r.turned_frame blind
  rw [e]

theorem Record.Works.spanLawful (w : Record.Works s moves r r') (reports : ∀ rep ∈ s.intake.queue, rep.Lawful)
    (staged : ∀ k ∈ s.cursor, k.staged.Lawful) (law : r.SpanLawful) : r'.SpanLawful := by
  cases w with
  | holds | retires | confirms | pins | unpins => exact law
  | tracks m queued part =>
    obtain ⟨-, -, -, rspan, -, -⟩ := reports _ queued
    exact Record.spanLawful_of_channel?_eq_none (Span.unionWith_lawful law.1 rspan) rfl
  | findsPhase | findsPeriod | reanchors => exact Record.spanLawful_of_channel?_eq_none law.1 rfl
  | takesAirtime => exact ⟨law.1, by simpa [Record.countHit] using law.2⟩
  | widens queued steady =>
    obtain ⟨-, -, -, rspan, -, -⟩ := reports _ queued
    refine Record.spanLawful_of_channel?_eq_none (Span.unionWith_lawful law.1 rspan) ?_
    revert steady
    simp only [Record.kind, Part.channel?_mapAirtime]
    cases r.part <;> simp [Part.kind, Part.channel?]
  | ages p blind now16 live aged =>
    obtain ⟨age, rfl, -⟩ := Record.aged_stays aged
    simpa [Record.SpanLawful, Record.turned_span] using law
  | leaves p blind order now16 held aged =>
    obtain ⟨age, rfl, -⟩ := Record.aged_leaves aged
    simpa [Record.SpanLawful, Record.turned_span] using law
  | commits cursor live passes =>
    exact State.meetsRebase_spanLawful (Record.committed_spanLawful law (staged _ cursor) passes)

theorem derivedChannel_range (centre : Nat) : 1 ≤ derivedChannel centre ∧ derivedChannel centre ≤ 14 := by
  simp only [derivedChannel, clampInt]
  omega

theorem Record.Born.spanLawful (b : Record.Born s r) (reports : ∀ rep ∈ s.intake.queue, rep.Lawful) : r.SpanLawful := by
  cases b with
  | swept seq queued | steady seq queued =>
    obtain ⟨-, -, -, rspan, -, -⟩ := reports _ queued
    exact Record.spanLawful_of_channel?_eq_none rspan rfl
  | preamble tag seq queued =>
    exact Record.spanLawful_of_channel rfl (derivedChannel_range _).1 (derivedChannel_range _).2 rfl
  | pinned seq valid =>
    unfold PinRequest.record at valid
    split at valid
    · cases valid
    · obtain ⟨x, hx, he⟩ := Option.map_eq_some_iff.1 valid
      cases he
      exact Record.spanLawful_of_channel?_eq_none (pinSpan_lawful hx) rfl
    · obtain ⟨x, hx, he⟩ := Option.map_eq_some_iff.1 valid
      cases he
      exact Record.spanLawful_of_channel?_eq_none (pinSpan_lawful hx) rfl
    · split at valid
      · next ch =>
        cases valid
        exact Record.spanLawful_of_channel rfl ch.1 ch.2 rfl
      · cases valid

/-! ### The oven part (R9) -/

theorem clampP16_range (x : Int) : 256000 ≤ clampP16 x ∧ clampP16 x ≤ 336000 := by
  simp only [clampP16, clampInt]; omega

theorem clampD_range (x : Int) : 1000 ≤ clampD x ∧ clampD x ≤ 15000 := by
  simp only [clampD, clampInt]; omega

theorem clampW_range (x : Int) : 250 ≤ clampW x ∧ clampW x ≤ 4000 := by
  simp only [clampW, clampInt]; omega

theorem OvenPart.Lawful.known {o : OvenPart} (law : o.Lawful) (h : o.periodKnown = true) :
    256000 ≤ o.p16 ∧ o.p16 ≤ 336000 := by
  have := law.1
  rwa [if_pos h] at this

theorem OvenPart.Lawful.unknown {o : OvenPart} (law : o.Lawful) (h : o.periodKnown = false) :
    o.p16 = 0 ∧ o.phaseKnown = true := by
  have := law.1
  rwa [if_neg (by simp [h])] at this

theorem OvenPart.corrected_lawful {o : OvenPart} (m : PhaseMatch) (duration : Nat) (origin : Origin) (law : o.Lawful)
    (known : o.periodKnown = true) (phase : o.phaseKnown = true) : (o.corrected m duration origin).Lawful := by
  refine ⟨?_, law.2.1, fun h => absurd phase (by simp [OvenPart.corrected] at h; simp [h]), clampD_range _ |>.1,
    clampD_range _ |>.2, law.2.2.2.2.2⟩
  simp only [OvenPart.corrected, known, if_true]
  split
  · exact clampP16_range _
  · exact law.known known

/-- The rebase leaves a lawful oven; it moves the anchor only where the phase is known (R65). -/
theorem OvenPart.rebased_lawful {o : OvenPart} (now16 : Time16) (law : o.Lawful) : (o.rebased now16).Lawful := by
  obtain ⟨period, stood, phase, dw⟩ := law
  unfold OvenPart.rebased
  split
  · next h =>
    simp only [Bool.and_eq_true] at h
    exact ⟨period, by simp, fun hp => absurd h.2 (by simp [show o.phaseKnown = false from hp]), dw⟩
  · exact ⟨period, by simp, phase, dw⟩

/-- A commit leaves a lawful oven: a staged value is clamped to its field's range (R185, R186). -/
theorem OvenPart.committed_lawful {o : OvenPart} (g : Staged) (law : o.Lawful) : (o.committed g).Lawful := by
  obtain ⟨lo, hi, p, d, w, ch, tag⟩ := g
  obtain ⟨period, stood, phase, d1, d2, w1, w2⟩ := law
  refine ⟨?_, stood, phase, ?_⟩
  · cases p with
    | none => simpa [OvenPart.committed] using period
    | some v => simpa [OvenPart.committed] using clampP16_range v
  · have hd : 1000 ≤ (d.map (fun v => clampD v)).getD o.d ∧ (d.map (fun v => clampD v)).getD o.d ≤ 15000 := by
      cases d with
      | none => exact ⟨d1, d2⟩
      | some v => exact clampD_range v
    have hw : 250 ≤ (w.map (fun v => clampW v)).getD o.w ∧ (w.map (fun v => clampW v)).getD o.w ≤ 4000 := by
      cases w with
      | none => exact ⟨w1, w2⟩
      | some v => exact clampW_range v
    exact ⟨hd.1, hd.2, hw.1, hw.2⟩

/-- R66 leaves a lawful oven: it keeps the known period for the rebase, or moves an anchor of known phase. -/
theorem OvenPart.meetsRebase_lawful {o new : OvenPart} (b : Timebase) (law : o.Lawful) (known : o.periodKnown = true)
    (phase : new.phaseKnown = o.phaseKnown) (lawNew : new.Lawful) : (o.meetsRebase new b).Lawful := by
  obtain ⟨period, stood, anchor, dw⟩ := lawNew
  rcases o.meetsRebase_cases new b with ⟨-, e⟩ | ⟨x, a16, -, -, hp, -, -, -, e⟩ | e
  · rw [e]
    refine ⟨period, ?_, anchor, dw⟩
    rintro p ⟨⟩
    cases hs : o.stood with
    | none => exact law.known known
    | some p => exact law.2.1 p hs
  · rw [e]
    exact ⟨period, stood, fun h => absurd (phase.trans hp) (by simp [show new.phaseKnown = false from h]), dw⟩
  · rw [e]
    exact ⟨period, stood, anchor, dw⟩

theorem givenOr_range {absent lo hi v : Nat} (h : lo ≤ hi) (ha : lo ≤ absent ∧ absent ≤ hi) :
    lo ≤ (givenOr absent lo hi v).value ∧ (givenOr absent lo hi v).value ≤ hi := by
  unfold givenOr givenIn clampNat
  split
  · exact ha
  · dsimp only; omega

/-- A law of the oven part, of a record: a record of another kind meets it. -/
abbrev Record.OvenLawful (r : Record) : Prop := ∀ o ∈ r.oven?, o.Lawful

theorem Record.ovenLawful_of_part {r : Record} {o : OvenPart} (hp : r.part = .oven o) (law : o.Lawful) : r.OvenLawful := by
  intro o' h
  cases (Record.oven?_of_part hp).symm.trans h
  exact law

theorem Record.ovenLawful_of_part_eq {q : Record} (hp : r'.part = q.part) (law : q.OvenLawful) : r'.OvenLawful := by
  simpa only [Record.OvenLawful, Record.oven?, hp] using law

theorem Record.OvenLawful.mapAirtime (f : Airtime → Airtime) (hp : r'.part = r.part.mapAirtime f)
    (law : r.OvenLawful) : r'.OvenLawful := by
  intro o h
  rw [Option.mem_def, Record.oven?_eq_some, hp] at h
  exact law o (by rw [Option.mem_def, Record.oven?_eq_some]; revert h; cases r.part <;> simp [Part.mapAirtime])

theorem Record.OvenLawful.closed (now16 : Time16) (hp : r'.part = r.part.closed now16) (law : r.OvenLawful) :
    r'.OvenLawful := by
  cases hr : r.part with
  | oven o =>
    rw [hr] at hp
    exact Record.ovenLawful_of_part hp (OvenPart.rebased_lawful now16 (law o (Record.oven?_of_part hr)))
  | neighbour | steady =>
    rw [hr] at hp
    intro o h
    simp [Record.oven?, hp, Part.closed] at h

theorem Record.Works.ovenLawful (w : Record.Works s moves r r') (law : r.OvenLawful) : r'.OvenLawful := by
  cases w with
  | holds | retires | confirms | pins | unpins => exact law
  | tracks m queued part rhythmic =>
    exact Record.ovenLawful_of_part rfl (OvenPart.corrected_lawful m _ _ (law _ (Record.oven?_of_part part)) rhythmic.2.1
      rhythmic.2.2.1)
  | findsPhase a16 part =>
    obtain ⟨period, stood, -, dw⟩ := law _ (Record.oven?_of_part part)
    refine Record.ovenLawful_of_part rfl ⟨?_, stood, by simp, dw⟩
    split
    · next h => rwa [if_pos h] at period
    · next h => rw [if_neg h] at period; exact ⟨period.1, rfl⟩
  | findsPeriod a16 part lo hi unknown =>
    have lawO := law _ (Record.oven?_of_part part)
    have phase := (lawO.unknown unknown).2
    exact Record.ovenLawful_of_part rfl ⟨by simp [lo, hi], lawO.2.1, by simp [phase], lawO.2.2.2⟩
  | reanchors a16 part unknown =>
    have lawO := law _ (Record.oven?_of_part part)
    have phase := (lawO.unknown unknown).2
    exact Record.ovenLawful_of_part rfl ⟨lawO.1, lawO.2.1, by simp [phase], lawO.2.2.2⟩
  | takesAirtime => exact law.mapAirtime _ rfl
  | widens => exact law.mapAirtime _ rfl
  | ages p blind now16 => exact law.closed now16 rfl
  | leaves p blind order now16 =>
    rcases r.part.atRetirement_cases order now16 with e | e
    · exact Record.ovenLawful_of_part_eq e law
    · exact law.closed now16 e
  | commits cursor live passes =>
    next q k clamped =>
    cases hr : r.part with
    | oven o =>
      have lawO := law o (Record.oven?_of_part hr)
      have hq : q.part = .oven (o.committed k.staged) := by
        unfold Record.committed at passes
        rw [hr] at passes
        obtain ⟨x, -, hx⟩ := Option.map_eq_some_iff.1 passes
        cases hx
        rfl
      have lawQ := OvenPart.committed_lawful k.staged lawO
      rcases s.meetsRebase_frame r k.staged q with e | ⟨o', new, ho, hn, known, -, e⟩
      · rw [e]
        exact Record.ovenLawful_of_part hq lawQ
      · cases hr.symm.trans ho
        cases hq.symm.trans hn
        rw [e]
        exact Record.ovenLawful_of_part rfl (OvenPart.meetsRebase_lawful _ lawO known rfl lawQ)
    | neighbour | steady =>
      intro o h
      have kq := (Record.committed_frame passes).2
      have ks := (s.meetsRebase_keeps r k.staged q).2
      rw [Option.mem_def, Record.oven?_eq_some] at h
      rw [kq] at ks
      simp [Record.kind, h, hr, Part.kind] at ks

theorem Record.Born.ovenLawful (b : Record.Born s r) : r.OvenLawful := by
  cases b with
  | swept seq queued =>
    exact Record.ovenLawful_of_part rfl
      ⟨by simp [newOvenPart], by simp [newOvenPart], by simp [newOvenPart], (clampD_range _).1, (clampD_range _).2,
        clampW_range _⟩
  | preamble | steady => intro o h; cases h
  | pinned seq valid =>
    next q r₀ clamped =>
    unfold PinRequest.record at valid
    split at valid
    · cases valid
    · obtain ⟨x, hx, he⟩ := Option.map_eq_some_iff.1 valid
      cases he
      have hp : 256000 ≤ (givenIn 256000 336000 q.period).value ∧ (givenIn 256000 336000 q.period).value ≤ 336000 := by
        simp only [givenIn, clampNat]; omega
      have hd := givenOr_range (lo := 1000) (hi := 15000) (v := q.d) (absent := (givenIn 256000 336000 q.period).value / 32)
        (by omega) (by omega)
      exact Record.ovenLawful_of_part rfl ⟨by simpa using hp, nofun, fun _ => rfl, hd.1, hd.2, clampW_range _⟩
    · obtain ⟨x, hx, he⟩ := Option.map_eq_some_iff.1 valid
      cases he
      intro o h; cases h
    · split at valid
      · cases valid
        intro o h; cases h
      · cases valid

/-! ### The airtime fields (R70) -/

/-- A law of the airtime fields, of a record: an OVEN meets it. -/
abbrev Record.AirtimeLawful (r : Record) : Prop := ∀ a ∈ r.part.airtime?, a.Lawful

theorem Airtime.hit_lawful {a : Airtime} {rep : Report} (law : a.Lawful) (report : rep.Lawful) :
    (a.hit rep.duration rep.level).Lawful := by
  obtain ⟨-, -, -, -, r1, r2⟩ := report
  obtain ⟨a1, a2, a3, a4⟩ := law
  simp only [Airtime.Lawful, Airtime.hit, accLimit, roundDiv]
  omega

theorem Airtime.closed_lawful {a : Airtime} (law : a.Lawful) : a.closed.Lawful := by
  obtain ⟨a1, a2, a3, a4⟩ := law
  simp only [Airtime.Lawful, Airtime.closed, accLimit, roundDiv]
  omega

theorem Part.airtime?_mapAirtime (part : Part) (f : Airtime → Airtime) :
    (part.mapAirtime f).airtime? = part.airtime?.map f := by
  cases part <;> rfl

theorem Part.airtime?_closed (part : Part) (now16 : Time16) : (part.closed now16).airtime? = part.airtime?.map Airtime.closed := by
  cases part <;> rfl

theorem Record.AirtimeLawful.map {f : Airtime → Airtime} (hp : r'.part.airtime? = r.part.airtime?.map f)
    (hf : ∀ a : Airtime, a.Lawful → (f a).Lawful) (law : r.AirtimeLawful) : r'.AirtimeLawful := by
  intro a h
  rw [hp] at h
  obtain ⟨a', h', rfl⟩ := Option.map_eq_some_iff.1 h
  exact hf _ (law a' h')

theorem Record.airtimeLawful_of_eq (hp : r'.part.airtime? = r.part.airtime?) (law : r.AirtimeLawful) : r'.AirtimeLawful := by
  simpa only [Record.AirtimeLawful, hp] using law

/-- A commit leaves the airtime fields (R186). -/
theorem State.airtime?_commit {s : State} {q : Record} {g : Staged} {clamped : Bool} (h : r.committed g = some (q, clamped)) :
    (s.meetsRebase r g q).part.airtime? = r.part.airtime? := by
  have hq : q.part.airtime? = r.part.airtime? := by
    unfold Record.committed at h
    split at h
    · next o ho =>
      obtain ⟨x, -, hx⟩ := Option.map_eq_some_iff.1 h
      cases hx
      simp [ho, Part.airtime?]
    · obtain ⟨x, -, hx⟩ := Option.map_eq_some_iff.1 h
      cases hx
      rfl
    · next ha => cases h; simp [ha, Part.airtime?]
  rcases s.meetsRebase_frame r g q with e | ⟨o, new, ho, hn, -, -, e⟩
  · rw [e, hq]
  · rw [e, ho]; rfl

theorem Record.Works.airtimeLawful (w : Record.Works s moves r r') (reports : ∀ rep ∈ s.intake.queue, rep.Lawful)
    (law : r.AirtimeLawful) : r'.AirtimeLawful := by
  cases w with
  | holds | retires | confirms | pins | unpins => exact law
  | tracks | findsPhase | findsPeriod | reanchors => intro a h; cases h
  | takesAirtime queued =>
    exact law.map (Part.airtime?_mapAirtime _ _) (fun _ ha => Airtime.hit_lawful ha (reports _ queued))
  | widens queued =>
    exact law.map (Part.airtime?_mapAirtime _ _) (fun _ ha => Airtime.hit_lawful ha (reports _ queued))
  | ages p blind now16 => exact law.map (Part.airtime?_closed _ now16) (fun _ => Airtime.closed_lawful)
  | leaves p blind order now16 =>
    rcases r.part.atRetirement_cases order now16 with e | e
    · exact Record.airtimeLawful_of_eq (congrArg Part.airtime? e) law
    · exact law.map ((congrArg Part.airtime? e).trans (Part.airtime?_closed _ now16)) (fun _ => Airtime.closed_lawful)
  | commits cursor live passes => exact Record.airtimeLawful_of_eq (State.airtime?_commit passes) law

theorem newAirtime_lawful {rep : Report} (report : rep.Lawful) : (newAirtime rep).Lawful := by
  obtain ⟨-, r2, -, -, r5, r6⟩ := report
  exact ⟨by simp [newAirtime], by simp only [newAirtime]; omega, r5, r6⟩

theorem Record.Born.airtimeLawful (b : Record.Born s r) (reports : ∀ rep ∈ s.intake.queue, rep.Lawful) :
    r.AirtimeLawful := by
  cases b with
  | swept => intro a h; cases h
  | preamble tag seq queued => rintro _ ⟨⟩; exact newAirtime_lawful (reports _ queued)
  | steady seq queued => rintro _ ⟨⟩; exact newAirtime_lawful (reports _ queued)
  | pinned seq valid =>
    unfold PinRequest.record at valid
    split at valid
    · cases valid
    · obtain ⟨x, hx, he⟩ := Option.map_eq_some_iff.1 valid
      cases he
      intro a h; cases h
    · obtain ⟨x, hx, he⟩ := Option.map_eq_some_iff.1 valid
      cases he
      rintro _ ⟨⟩; simp [Airtime.Lawful]
    · split at valid
      · cases valid
        rintro _ ⟨⟩; simp [Airtime.Lawful]
      · cases valid

end Works

/-! ### Every step -/

/-- A law of the records that every work keeps and every created record meets is kept by every command. -/
theorem exec_keeps_records {P : Record → Prop} {c : Instr} {s t : State} (h : exec c s = .next t)
    (works : ∀ moves r r', P r → Record.Works s moves r r' → P r') (born : ∀ r, Record.Born s r → P r)
    (law : ∀ x ∈ s.table.slots, ∀ r ∈ x.record, P r) : ∀ x ∈ t.table.slots, ∀ r ∈ x.record, P r := by
  by_cases hc : c = .powerOnReset
  · subst hc
    cases h
    intro x hx r hr
    rw [List.eq_of_mem_replicate hx] at hr
    cases hr
  · exact (exec_table_step hc h).all (works _) born law

theorem exec_keeps_spanLaw {c : Instr} {s t : State} (law : s.SpanLaw) (h : exec c s = .next t) : t.SpanLaw := by
  obtain ⟨records, reports, staged⟩ := law
  exact ⟨exec_keeps_records (P := Record.SpanLawful) h (fun _ _ _ hr w => w.spanLawful reports staged hr)
    (fun _ b => b.spanLawful reports) records, exec_keeps_reports h reports, exec_keeps_staged h staged⟩

theorem exec_keeps_ovenLaw {c : Instr} {s t : State} (law : s.OvenLaw) (h : exec c s = .next t) : t.OvenLaw :=
  exec_keeps_records (P := Record.OvenLawful) h (fun _ _ _ hr w => w.ovenLawful hr) (fun _ b => b.ovenLawful) law

theorem exec_keeps_airtimeLaw {c : Instr} {s t : State} (law : s.AirtimeLaw) (h : exec c s = .next t) : t.AirtimeLaw := by
  obtain ⟨records, reports⟩ := law
  exact ⟨exec_keeps_records (P := Record.AirtimeLawful) h (fun _ _ _ hr w => w.airtimeLawful reports hr)
    (fun _ b => b.airtimeLawful reports) records, exec_keeps_reports h reports⟩

/-- Settles O52: the works on records and the creations keep each of the three laws, the reports and the staged values
that feed them being lawful. -/
theorem stepKeepsRecordLaws : Obligations.StepKeepsRecordLaws := by
  intro s t h
  exact ⟨fun law => step_keeps (fun _ _ _ hu => hu) (fun _ _ _ => exec_keeps_spanLaw) (fun _ _ hu => hu)
      (fun _ _ hu => hu) law h,
    fun law => step_keeps (fun _ _ _ hu => hu) (fun _ _ _ => exec_keeps_ovenLaw) (fun _ _ hu => hu)
      (fun _ _ hu => hu) law h,
    fun law => step_keeps (fun _ _ _ hu => hu) (fun _ _ _ => exec_keeps_airtimeLaw) (fun _ _ hu => hu)
      (fun _ _ hu => hu) law h⟩

end Sys2Proof.Machine
end

section
/-! The law of pinning with the counts (R3, R6), and the law of the RETIRED state with the cursor (R23, R180): the first
is read from the works on records and the counts of a step of the table; for the second each slot is followed with
whether the cursor holds it. -/

namespace Sys2Proof.Machine

open Relation (ReflTransGen)

/-! ### The law of pinning (R6) -/

section Pin
variable {s : State} {moves : Bool} {r r' : Record}

/-- The law of pinning from another record's: where the period is unknown it was unknown before, and the state stands
or is RETIRED. -/
theorem Record.PinLawful.of_record (law : r.PinLawful) (origin : r'.origin = .pinned → r'.state ≠ .candidate)
    (unknown : ∀ o ∈ r'.oven?, o.periodKnown = false → r'.origin = r.origin
      ∧ (r'.state = r.state ∨ r'.state = .retired) ∧ ∃ q ∈ r.oven?, q.periodKnown = false) : r'.PinLawful := by
  refine ⟨origin, fun o ho hk => ?_⟩
  obtain ⟨same, state, q, hq, hqk⟩ := unknown o ho hk
  obtain ⟨learned, stands⟩ := law.2 q hq hqk
  refine ⟨same.trans learned, ?_⟩
  rcases state with e | e
  · rwa [e]
  · exact .inr e

/-- A record of known period, or of another kind, that is no pinned candidate. -/
theorem Record.pinLawful_of_known (origin : r.origin = .pinned → r.state ≠ .candidate)
    (known : ∀ o ∈ r.oven?, o.periodKnown = true) : r.PinLawful :=
  ⟨origin, fun o ho hk => absurd (known o ho) (by simp [hk])⟩

/-- The airtime fields are no part of an oven. -/
theorem Record.mem_oven?_of_mapAirtime {o : OvenPart} {f : Airtime → Airtime} (ho : o ∈ r'.oven?)
    (hp : r'.part = r.part.mapAirtime f) : o ∈ r.oven? := by
  rw [Option.mem_def, Record.oven?_eq_some] at ho ⊢
  rw [hp] at ho
  revert ho
  cases r.part <;> simp [Part.mapAirtime]

/-- The boundary leaves whether the period is known. -/
theorem Record.oven?_closed {now16 : Time16} (hp : r'.part = r.part ∨ r'.part = r.part.closed now16) {o : OvenPart}
    (ho : o ∈ r'.oven?) : ∃ q ∈ r.oven?, q.periodKnown = o.periodKnown := by
  rw [Option.mem_def, Record.oven?_eq_some] at ho
  rcases hp with hp | hp
  · exact ⟨o, Record.oven?_eq_some.2 (hp ▸ ho), rfl⟩
  · cases hr : r.part with
    | oven q =>
      rw [hp, hr] at ho
      cases ho
      obtain ⟨_, _, e⟩ := q.rebased_frame now16
      exact ⟨q, Record.oven?_of_part hr, by rw [e]⟩
    | neighbour | steady => simp [hp, hr, Part.closed] at ho

theorem Record.Works.pinLawful (w : Record.Works s moves r r') (law : r.PinLawful) : r'.PinLawful := by
  cases w with
  | holds => exact law
  | retires => exact law.of_record (fun _ => by simp) (fun o ho hk => ⟨rfl, .inr rfl, o, ho, hk⟩)
  | confirms candidate meets =>
    exact Record.pinLawful_of_known (fun _ => by simp [Record.confirmed])
      fun o ho => Params.known_of_confirms meets (Record.oven?_eq_some.1 ho)
  | tracks m queued part rhythmic =>
    refine Record.pinLawful_of_known law.1 fun o ho => ?_
    cases ho
    exact rhythmic.2.1
  | findsPhase a16 part | reanchors a16 part =>
    refine law.of_record law.1 fun o ho hk => ⟨rfl, .inl rfl, _, Record.oven?_of_part part, ?_⟩
    cases ho
    exact hk
  | findsPeriod => exact Record.pinLawful_of_known law.1 (by rintro _ ⟨⟩; rfl)
  | takesAirtime | widens =>
    exact law.of_record law.1 fun o ho hk => ⟨rfl, .inl rfl, o, Record.mem_oven?_of_mapAirtime ho rfl, hk⟩
  | ages p blind now16 live aged =>
    obtain ⟨age, rfl, -⟩ := Record.aged_stays aged
    obtain ⟨idle, streak, st, h, hst⟩ := r.turned_frame blind
    rw [h]
    refine law.of_record (fun hp => ?_) fun o ho hk => ?_
    · rcases hst with rfl | ⟨-, rfl⟩ | ⟨-, rfl⟩
      · exact law.1 hp
      · simp
      · simp
    · obtain ⟨q, hq, hqk⟩ := Record.oven?_closed (.inr rfl) ho
      have unknown := law.2 q hq (hqk.trans hk)
      refine ⟨rfl, .inl ?_, q, hq, hqk.trans hk⟩
      rcases hst with rfl | ⟨e, -⟩ | ⟨e, -⟩
      · rfl
      · simp [e] at unknown
      · simp [e] at unknown
  | leaves p blind order now16 held aged =>
    obtain ⟨age, rfl, -⟩ := Record.aged_leaves aged
    obtain ⟨idle, streak, st, h, -⟩ := r.turned_frame blind
    rw [h]
    refine law.of_record (fun _ => by simp) fun o ho hk => ?_
    obtain ⟨q, hq, hqk⟩ := Record.oven?_closed (r.part.atRetirement_cases order now16) ho
    exact ⟨rfl, .inr rfl, q, hq, hqk.trans hk⟩
  | commits cursor live passes =>
    next q k clamped =>
    have frame : s.meetsRebase r k.staged q = { r with span := q.span, part := (s.meetsRebase r k.staged q).part } := by
      rw [(s.meetsRebase_keeps _ _ _).1, (Record.committed_frame passes).1]
    rw [frame]
    refine law.of_record law.1 fun o ho hk => ⟨rfl, .inl rfl, ?_⟩
    rw [Option.mem_def, Record.oven?_eq_some] at ho
    have known : ∃ new, q.part = .oven new ∧ new.periodKnown = o.periodKnown := by
      rcases s.meetsRebase_frame r k.staged q with e | ⟨o', new, -, hn, -, -, e⟩
      · exact ⟨o, by rw [← ho, e], rfl⟩
      · refine ⟨new, hn, ?_⟩
        rw [e] at ho
        cases ho
        rcases o'.meetsRebase_cases new s.timebase with ⟨-, e'⟩ | ⟨x, a16, -, -, -, -, -, -, e'⟩ | e' <;> rw [e']
    obtain ⟨new, hnew, hknown⟩ := known
    unfold Record.committed at passes
    split at passes
    · next o₀ ho₀ =>
      obtain ⟨x, -, hx⟩ := Option.map_eq_some_iff.1 passes
      cases hx
      cases hnew
      refine ⟨o₀, Record.oven?_of_part ho₀, ?_⟩
      have := hknown.trans hk
      simp only [OvenPart.committed, Bool.or_eq_false_iff] at this
      exact this.1
    · next ha =>
      obtain ⟨x, -, hx⟩ := Option.map_eq_some_iff.1 passes
      cases hx
      simp [ha] at hnew
    · cases passes
      cases hnew
  | pins counted =>
    refine ⟨fun _ => by rcases counted with e | e <;> simp [e], fun o ho hk => ?_⟩
    have := (law.2 o ho hk).2
    rcases counted with e | e <;> simp [e] at this
  | unpins => exact ⟨by simp, fun o ho hk => ⟨rfl, (law.2 o ho hk).2⟩⟩

theorem Record.Born.pinLawful (b : Record.Born s r) : r.PinLawful := by
  cases b with
  | swept => exact ⟨by simp [learnedRecord], fun _ _ _ => ⟨rfl, .inl rfl⟩⟩
  | preamble | steady => exact ⟨by simp [learnedRecord], fun _ _ _ => ⟨rfl, .inl rfl⟩⟩
  | pinned seq valid =>
    obtain ⟨span, part, rfl⟩ := PinRequest.record_frame valid
    refine Record.pinLawful_of_known (by simp [pinnedRecord]) fun o ho => ?_
    unfold PinRequest.record at valid
    rw [Option.mem_def, Record.oven?_eq_some] at ho
    split at valid
    · cases valid
    · obtain ⟨x, -, hx⟩ := Option.map_eq_some_iff.1 valid
      injection hx with hx
      rw [← hx] at ho
      cases ho
      rfl
    · obtain ⟨x, -, hx⟩ := Option.map_eq_some_iff.1 valid
      injection hx with hx
      rw [← hx] at ho
      cases ho
    · split at valid
      · injection valid with valid
        injection valid with hx
        rw [← hx] at ho
        cases ho
      · cases valid

end Pin

/-- POWER_ON_RESET leaves 64 FREE slots and the counts of them. -/
theorem Table.reset_countsLaw : Table.reset.CountsLaw := by
  refine Table.countsLaw_iff.2 ⟨rfl, fun st => ?_, ?_⟩
  · rcases st with _ | _ | _ | _ | _ <;>
      simp [Table.reset, Table.countOf, StateCounts.of, Slot.state, Slot.reset]
  · simp [Table.reset, Slot.pinnedOne, Slot.reset]

theorem Table.slot_reset {i : Nat} (hi : i < 64) : Table.reset.slot i = Slot.reset :=
  List.eq_of_mem_replicate (Table.slot_mem (t := Table.reset) (by simpa [Table.reset] using hi))

theorem exec_keeps_pinLaw {c : Instr} {s t : State} (law : s.PinLaw) (h : exec c s = .next t) : t.PinLaw := by
  obtain ⟨counts, pinned, records, cursor⟩ := law
  have table : t.table.CountsLaw ∧ t.table.pinned ≤ 16 := by
    by_cases hc : c = .powerOnReset
    · subst hc
      cases h
      exact ⟨Table.reset_countsLaw, by simp [State.reset, Table.reset]⟩
    · have step := exec_table_step hc h
      exact ⟨step.counts counts, step.pinned counts pinned⟩
  refine ⟨table.1, table.2, exec_keeps_records (P := Record.PinLawful) h (fun _ _ _ hr w => w.pinLawful hr)
    (fun _ b => b.pinLawful) records, ?_⟩
  rcases exec_cursor h with he | he | ⟨i, g, hi, he⟩ | ⟨k, f, v, hk, he⟩
  · rwa [he]
  · simp [he]
  · rintro _ hk
    cases he.symm.trans hk
    exact counts.1 ▸ hi
  · rintro _ hk'
    cases he.symm.trans hk'
    exact cursor k hk

/-- Settles O53: a step of the table keeps the counts and the bound of 16, the works keep the law of pinning, and the
cursor opens on slots of the table alone. -/
theorem stepKeepsPinLaw : Obligations.StepKeepsPinLaw := fun _ _ law h =>
  step_keeps (fun _ _ _ hu => hu) (fun _ _ _ => exec_keeps_pinLaw) (fun _ _ hu => hu) (fun _ _ hu => hu) law h

/-! ### The held record (R23, R180) -/

/-- A slot that the cursor holds, or does not: its record says so, is held where it is RETIRED, and stands where it is
held. -/
def Slot.HeldAs (x : Slot) (b : Bool) : Prop :=
  (∀ r ∈ x.record, r.held = b ∧ (r.state = .retired → b = true)) ∧ (b = true → x.record.isSome = true)

/-- The slot of the cursor. -/
def State.heldAt (s : State) (i : Nat) : Bool := decide (s.cursor.map (·.slot) = some i)

theorem State.heldLaw_iff {s : State} : s.HeldLaw ↔ s.table.slots.length = 64
    ∧ (∀ i < 64, (s.table.slot i).HeldAs (s.heldAt i))
    ∧ ∀ k ∈ s.cursor, k.slot < 64 ∧ (s.table.slot k.slot).gen = k.gen := by
  constructor
  · rintro ⟨len, slots, cursor⟩
    refine ⟨len, fun i hi => ⟨fun r hr => ?_, fun hb => ?_⟩, fun k hk => ⟨(cursor k hk).1, (cursor k hk).2.1⟩⟩
    · obtain ⟨held, retired⟩ := slots i hi r hr
      exact ⟨held, fun hs => held.symm.trans (retired hs)⟩
    · obtain ⟨k, hk, rfl⟩ := Option.map_eq_some_iff.1 (of_decide_eq_true hb)
      exact (cursor k hk).2.2
  · rintro ⟨len, slots, cursor⟩
    refine ⟨len, fun i hi r hr => ?_, fun k hk => ⟨(cursor k hk).1, (cursor k hk).2, ?_⟩⟩
    · obtain ⟨held, retired⟩ := (slots i hi).1 r hr
      exact ⟨held, fun hs => held.trans (retired hs)⟩
    · have hk' : s.cursor = some k := hk
      exact (slots k.slot (cursor k hk).1).2 (by simp [State.heldAt, hk'])

section Held
variable {s t : State}

/-- Where the cursor does not move, what becomes of a slot keeps whether it is held. -/
theorem Slot.Step.heldAs {x y : Slot} {b : Bool} (h : Slot.Step s false x y) (law : x.HeldAs b) :
    y.HeldAs b ∧ (b = true → y.gen = x.gen) := by
  have works {r r' : Record} (w : ReflTransGen (Record.Works s false) r r')
      (lr : r.held = b ∧ (r.state = .retired → b = true)) : r'.held = b ∧ (r'.state = .retired → b = true) := by
    refine ReflTransGen.keeps (P := fun r => r.held = b ∧ (r.state = .retired → b = true)) (fun q q' hq w => ?_) w lr
    exact ⟨w.held_eq.trans hq.1, fun hs => (w.held_eq.trans hq.1).symm.trans
      (w.retired_held (fun hr => hq.1.trans (hq.2 hr)) hs)⟩
  have born {r : Record} (hr : Record.Born s r) : r.held = false ∧ r.state ≠ .retired := by
    cases hr with
    | swept | preamble | steady => exact ⟨rfl, by simp [learnedRecord]⟩
    | pinned seq valid =>
      obtain ⟨span, part, rfl⟩ := PinRequest.record_frame valid
      exact ⟨rfl, by simp [pinnedRecord]⟩
  have created {r r' : Record} (hr : Record.Born s r) (w : ReflTransGen (Record.Works s false) r r') (hb : b = false) :
      r'.held = b ∧ (r'.state = .retired → b = true) :=
    works w ⟨(born hr).1.trans hb.symm, fun hs => absurd hs (born hr).2⟩
  cases h with
  | free vacant => exact ⟨law, fun _ => rfl⟩
  | kept was w =>
    refine ⟨⟨?_, fun _ => rfl⟩, fun _ => rfl⟩
    rintro _ ⟨⟩
    exact works w (law.1 _ was)
  | freed was w held =>
    have hb : b = false := (works w (law.1 _ was)).1.symm.trans (held rfl)
    exact ⟨⟨nofun, by simp [hb]⟩, by simp [hb]⟩
  | entered vacant hr w =>
    have hb : b = false := by
      by_contra hb
      have := law.2 (by simpa using hb)
      simp [vacant] at this
    refine ⟨⟨?_, fun _ => rfl⟩, by simp [hb]⟩
    rintro _ ⟨⟩
    exact created hr w hb
  | taken was held hr w =>
    have hb : b = false := (law.1 _ was).1.symm.trans held
    refine ⟨⟨?_, by simp [hb]⟩, by simp [hb]⟩
    rintro _ ⟨⟩
    exact created hr w hb

/-- A step of the table with the cursor on the same handle keeps the law. -/
theorem State.HeldLaw.of_step (law : s.HeldLaw) (step : Table.Step s false s.table t.table)
    (cursor : t.cursor.map (fun k => (k.slot, k.gen)) = s.cursor.map (fun k => (k.slot, k.gen))) : t.HeldLaw := by
  obtain ⟨len, slots, held⟩ := State.heldLaw_iff.1 law
  have at_eq (i : Nat) : t.heldAt i = s.heldAt i := by
    have := congrArg (Option.map Prod.fst) cursor
    simp only [Option.map_map] at this
    have e : t.cursor.map (·.slot) = s.cursor.map (·.slot) := this
    simp only [State.heldAt, e]
  refine State.heldLaw_iff.2 ⟨step.length.trans len, fun i hi => ?_, fun k hk => ?_⟩
  · rw [at_eq]
    exact ((step.slot i).heldAs (slots i hi)).1
  · rw [Option.mem_def.1 hk] at cursor
    obtain ⟨k', hk', e⟩ := Option.map_eq_some_iff.1 cursor.symm
    injection e with e1 e2
    obtain ⟨lt, gen⟩ := held k' hk'
    rw [← e1, ← e2]
    refine ⟨lt, (((step.slot k'.slot).heldAs (slots _ lt)).2 ?_).trans gen⟩
    simp [State.heldAt, hk']

/-- With the cursor closed no record is held, and none is RETIRED. -/
theorem State.heldLaw_of_closed (hc : s.cursor = none) (len : s.table.slots.length = 64)
    (slots : ∀ i < 64, ∀ r ∈ s.table.record i, r.held = false ∧ r.state ≠ .retired) : s.HeldLaw := by
  refine State.heldLaw_iff.2 ⟨len, fun i hi => ⟨fun r hr => ?_, ?_⟩, by simp [hc]⟩
  · obtain ⟨h1, h2⟩ := slots i hi r hr
    exact ⟨h1.trans (by simp [State.heldAt, hc]), fun hs => absurd hs h2⟩
  · simp [State.heldAt, hc]

theorem State.HeldLaw.closed (law : s.HeldLaw) (hc : s.cursor = none) {i : Nat} (hi : i < 64) {r : Record}
    (hr : s.table.record i = some r) : r.held = false ∧ r.state ≠ .retired := by
  obtain ⟨held, retired⟩ := law.2.1 i hi r hr
  have : r.held = false := held.trans (by simp [hc])
  exact ⟨this, fun hs => by simp [this] at retired; exact retired hs⟩

theorem State.HeldLaw.other (law : s.HeldLaw) {k : Cursor} (hk : s.cursor = some k) {i : Nat} (hi : i < 64)
    (ne : i ≠ k.slot) {r : Record} (hr : s.table.record i = some r) : r.held = false ∧ r.state ≠ .retired := by
  obtain ⟨held, retired⟩ := law.2.1 i hi r hr
  have : r.held = false := held.trans (by simp [hk, ne.symm])
  exact ⟨this, fun hs => by simp [this] at retired; exact retired hs⟩

/-- The cursor closes on a live record, or on none. -/
theorem State.HeldLaw.letGo (law : s.HeldLaw) (live : ∀ k ∈ s.cursor, ∀ r ∈ s.table.record k.slot, r.state ≠ .retired) :
    s.letGo.HeldLaw := by
  cases hk : s.cursor with
  | none => rwa [State.letGo, hk]
  | some k =>
    obtain ⟨lt, -, some⟩ := law.2.2 k hk
    obtain ⟨r, hr⟩ := Option.isSome_iff_exists.1 some
    have table : s.letGo.table = s.table.put k.slot { r with held := false } := by
      simp [State.letGo, hk, State.setHeld, hr]
    refine State.heldLaw_of_closed s.letGo_cursor (by rw [table]; exact (Table.length_replace _ _ _).trans law.1)
      fun i hi q hq => ?_
    rw [table, Option.mem_def, Table.record] at hq
    by_cases e : i = k.slot
    · subst e
      rw [Table.slot_put (Table.lt_of_record hr)] at hq
      cases hq
      exact ⟨rfl, live k hk r hr⟩
    · rw [Table.slot_put_ne e] at hq
      exact law.other hk hi e hq

/-- The slot of the held RETIRED record is freed (R23). -/
theorem State.HeldLaw.releaseGone (law : s.HeldLaw) {k : Cursor} (hk : s.cursor = some k) : (s.releaseGone k).HeldLaw := by
  have lt : k.slot < s.table.slots.length := law.1 ▸ (law.2.2 k hk).1
  refine State.heldLaw_of_closed rfl ((Table.length_replace _ _ _).trans law.1) fun i hi q hq => ?_
  change ((s.table.release k.slot).slot i).record = some q at hq
  by_cases e : i = k.slot
  · subst e
    rw [Table.slot_release lt] at hq
    cases hq
  · rw [Table.slot_release_ne e] at hq
    exact law.other hk hi e hq

/-- The closed cursor opens on a live record. -/
theorem State.HeldLaw.hold (law : s.HeldLaw) (hc : s.cursor = none) {i : Nat} {r : Record}
    (hr : s.table.record i = some r) : (s.hold i).HeldLaw := by
  have lt := Table.lt_of_record hr
  have table : (s.hold i).table = s.table.put i { r with held := true } := by
    simp [State.hold, State.setHeld, hr]
  have slot : (s.hold i).table.slot i = ⟨(s.table.slot i).gen, some { r with held := true }⟩ := by
    rw [table, Table.slot_put lt]
  have heldAt (j : Nat) : (s.hold i).heldAt j = decide (i = j) := by simp [State.heldAt, State.hold]
  refine State.heldLaw_iff.2 ⟨by rw [table]; exact (Table.length_replace _ _ _).trans law.1, fun j hj => ?_, ?_⟩
  · rw [heldAt]
    by_cases e : j = i
    · subst e
      rw [slot]
      refine ⟨?_, fun _ => rfl⟩
      rintro _ ⟨⟩
      simp
    · rw [table, Table.slot_put_ne e]
      refine ⟨fun q hq => ?_, fun hb => absurd (of_decide_eq_true hb).symm e⟩
      obtain ⟨h1, h2⟩ := law.closed hc hj hq
      exact ⟨h1.trans (by simp [Ne.symm e]), fun hs => absurd hs h2⟩
  · rintro _ ⟨⟩
    exact ⟨law.1 ▸ lt, by rw [slot]⟩

/-! ### A commit, before the record is let go (R185, R186) -/

/-- The state that a passing commit of `r` to `q` leaves before the record is let go. -/
def State.commitTo (s : State) (c : Cursor) (r q : Record) : State :=
  if r.learnsPeriod c.staged then (s.putRecord c.slot (s.meetsRebase r c.staged q)).confirm c.slot
  else s.putRecord c.slot (s.meetsRebase r c.staged q)

variable {c : Cursor} {r q : Record} {clamped : Bool}

theorem State.closeCommit_of_retired (hr : s.table.record c.slot = some r) (retired : r.state = .retired) :
    s.closeCommit c = ⟨s.releaseGone c, .gone, false⟩ := by
  simp [State.closeCommit, hr, retired]

theorem State.closeCommit_of_refused (hr : s.table.record c.slot = some r) (live : r.state ≠ .retired)
    (h : r.committed c.staged = none) : s.closeCommit c = ⟨s, .invalid, false⟩ := by
  simp [State.closeCommit, hr, live, h]

theorem State.closeCommit_of_passes (hr : s.table.record c.slot = some r) (live : r.state ≠ .retired)
    (h : r.committed c.staged = some (q, clamped)) : s.closeCommit c = ⟨(s.commitTo c r q).letGo, .ok, clamped⟩ := by
  simp [State.closeCommit, hr, live, h, State.commitTo]

/-- The outcomes of CLOSE COMMIT on a record that stands (R184 to R186). -/
theorem State.closeCommit_cases (hr : s.table.record c.slot = some r) :
    (r.state = .retired ∧ s.closeCommit c = ⟨s.releaseGone c, .gone, false⟩)
      ∨ (r.state ≠ .retired ∧ r.committed c.staged = none ∧ s.closeCommit c = ⟨s, .invalid, false⟩)
      ∨ ∃ q clamped, r.state ≠ .retired ∧ r.committed c.staged = some (q, clamped)
          ∧ s.closeCommit c = ⟨(s.commitTo c r q).letGo, .ok, clamped⟩ := by
  by_cases live : r.state = .retired
  · exact .inl ⟨live, State.closeCommit_of_retired hr live⟩
  cases h : r.committed c.staged with
  | none => exact .inr (.inl ⟨live, rfl, State.closeCommit_of_refused hr live h⟩)
  | some x => exact .inr (.inr ⟨x.1, x.2, live, rfl, State.closeCommit_of_passes hr live h⟩)

theorem State.commitTo_step (hk : s.cursor = some c) (hr : s.table.record c.slot = some r) (live : r.state ≠ .retired)
    (h : r.committed c.staged = some (q, clamped)) : Table.Step s false s.table (s.commitTo c r q).table := by
  have origin : (s.meetsRebase r c.staged q).origin = r.origin := by
    rw [(s.meetsRebase_keeps _ _ _).1, (Record.committed_frame h).1]
  have step : Table.Step s false s.table (s.putRecord c.slot (s.meetsRebase r c.staged q)).table :=
    (Table.Step.refl _).put hr (.commits hk live h) (.inr (origin ▸ id))
  unfold State.commitTo
  split
  · exact State.confirm_step step rfl _
  · exact step

theorem State.commitTo_cursor : (s.commitTo c r q).cursor = s.cursor := by
  unfold State.commitTo
  split
  · obtain ⟨_, _, h⟩ := State.confirm_writes (s.putRecord c.slot (s.meetsRebase r c.staged q)) c.slot
    rw [h]; rfl
  · rfl

/-- A confirmation check leaves a live record live. -/
theorem State.confirm_live {i : Nat} (hr : s.table.record i = some r) (live : r.state ≠ .retired) :
    ∃ r', (s.confirm i).table.record i = some r' ∧ r'.state ≠ .retired := by
  by_cases h : r.state = .candidate ∧ s.params.confirms r = true
  · exact ⟨_, State.record_confirm hr h.1 h.2, by simp [Record.confirmed]⟩
  · rw [State.confirm_of_record hr, if_neg h]
    exact ⟨r, hr, live⟩

/-- The committed record is live. -/
theorem State.commitTo_live (hr : s.table.record c.slot = some r) (live : r.state ≠ .retired)
    (h : r.committed c.staged = some (q, clamped)) :
    ∃ r', (s.commitTo c r q).table.record c.slot = some r' ∧ r'.state ≠ .retired := by
  have put : (s.putRecord c.slot (s.meetsRebase r c.staged q)).table.record c.slot = some (s.meetsRebase r c.staged q) := by
    rw [State.table_putRecord, Table.record, Table.slot_put (Table.lt_of_record hr)]
  have live' : (s.meetsRebase r c.staged q).state ≠ .retired := by
    rwa [(s.meetsRebase_keeps _ _ _).1, (Record.committed_frame h).1]
  unfold State.commitTo
  split
  · exact State.confirm_live put live'
  · exact ⟨_, put, live'⟩

theorem State.HeldLaw.closeCommit (law : s.HeldLaw) (hk : s.cursor = some c) : (s.closeCommit c).state.HeldLaw := by
  obtain ⟨r, hr⟩ := Option.isSome_iff_exists.1 (law.2.2 c hk).2.2
  rcases State.closeCommit_cases hr with ⟨-, e⟩ | ⟨-, -, e⟩ | ⟨q, clamped, live, passes, e⟩
  · rw [e]; exact law.releaseGone hk
  · rw [e]; exact law
  · rw [e]
    have lawTo : (s.commitTo c r q).HeldLaw :=
      law.of_step (State.commitTo_step hk hr live passes) (by rw [State.commitTo_cursor])
    refine lawTo.letGo fun k hk' r' hr' => ?_
    rw [State.commitTo_cursor, hk] at hk'
    cases hk'
    obtain ⟨r'', hr'', live'⟩ := State.commitTo_live hr live passes
    cases hr''.symm.trans hr'
    exact live'

theorem State.HeldLaw.closeDiscard (law : s.HeldLaw) (hk : s.cursor = some c) : (s.closeDiscard c).state.HeldLaw := by
  unfold State.closeDiscard
  split
  · exact law.releaseGone hk
  · next live =>
    refine law.letGo fun k hk' r hr => ?_
    cases hk.symm.trans hk'
    simpa [State.holdsRetired, State.heldRecord, hk, Option.mem_def.1 hr] using live

theorem State.HeldLaw.openNext (law : s.HeldLaw) (hc : s.cursor = none) (held : Option Nat) (status : Byte) :
    (s.openNext held status).HeldLaw := by
  unfold State.openNext
  split
  · next i hi =>
    obtain ⟨r, hr, -⟩ := Table.firstLive_spec hi
    exact law.hold hc hr
  · exact law

/-! ### Every row -/

/-- A command that does not move the cursor leaves its handle. -/
theorem exec_cursor_handle {c : Instr} (hq : movesCursor c = false) (hc : c ≠ .powerOnReset) (h : exec c s = .next t) :
    t.cursor.map (fun k => (k.slot, k.gen)) = s.cursor.map (fun k => (k.slot, k.gen)) := by
  by_cases hb : Block.cursor ∈ blocksOf c
  case neg => rw [(exec_frame h).cursor hb]
  cases c
  case powerOnReset => exact absurd rfl hc
  case editField =>
    change execEditField s = .next t at h
    unfold execEditField at h
    split at h
    swap
    · cases h; rfl
    split at h
    · cases h; rfl
    split at h
    · cases h; rfl
    next k hk =>
    split at h
    · cases h; rfl
    · cases h
      simp [hk, State.answerOk]
  case openRecord | closeRecord | nextRecord | reset => cases hq
  all_goals exact absurd hb (by simp [blocksOf])

theorem exec_keeps_heldLaw {c : Instr} (law : s.HeldLaw) (h : exec c s = .next t) : t.HeldLaw := by
  by_cases hc : c = .powerOnReset
  · subst hc
    cases h
    refine State.heldLaw_of_closed rfl rfl fun i hi r hr => ?_
    change (Table.reset.slot i).record = some r at hr
    rw [Table.slot_reset hi] at hr
    cases hr
  by_cases hq : movesCursor c = false
  · exact law.of_step (hq ▸ exec_table_step hc h) (exec_cursor_handle hq hc h)
  cases c
  case openRecord =>
    change execOpenRecord s = .next t at h
    unfold execOpenRecord at h
    split at h
    swap
    · cases h; exact law
    split at h
    · cases h; exact law
    next i r hi =>
    obtain ⟨-, -, -, hr, -⟩ := Table.resolve_record hi
    split at h
    · cases h; exact law
    next live =>
    cases h
    have lawGo : s.letGo.HeldLaw := law.letGo fun k hk q hq => by
      simpa [State.holdsRetired, State.heldRecord, Option.mem_def.1 hk, Option.mem_def.1 hq] using live
    have stands : ∃ q, s.letGo.table.record i = some q := by
      unfold State.letGo
      split
      · next k hk =>
        unfold State.setHeld
        split
        · next q hq =>
          by_cases e : i = k.slot
          · exact ⟨{ q with held := false }, by simp [Table.record, e, Table.lt_of_record hq]⟩
          · exact ⟨r, by simpa [Table.record, e] using hr⟩
        · exact ⟨r, hr⟩
      · exact ⟨r, hr⟩
    obtain ⟨q, hq⟩ := stands
    exact lawGo.hold s.letGo_cursor hq
  case closeRecord =>
    change execCloseRecord s = .next t at h
    unfold execCloseRecord at h
    split at h
    swap
    · cases h; exact law
    split at h
    · cases h; exact law
    · cases h; exact law
    next commit k _ hk =>
    cases h
    cases commit
    · exact law.closeDiscard hk
    · exact law.closeCommit hk
  case nextRecord =>
    change execNextRecord s = .next t at h
    unfold execNextRecord at h
    split at h
    swap
    · cases h; exact law
    split at h
    · next hk => cases h; exact law.openNext hk _ _
    next k hk =>
    dsimp only at h
    split at h
    · cases h; exact law
    next passes =>
    cases h
    exact (law.closeCommit hk).openNext ((s.closeCommit_cursor k).resolve_left (fun h => passes h.1)) _ _
  case reset =>
    change execReset s = .next t at h
    unfold execReset at h
    split at h
    · cases h
      refine State.heldLaw_of_closed rfl (by simpa [State.softReset, State.answer, Table.softReset] using law.1)
        fun i hi r hr => ?_
      have lt : i < s.table.slots.length := law.1 ▸ hi
      change (s.table.softReset.slot i).record = some r at hr
      rw [Table.slot] at hr
      simp [Table.softReset, List.getD, lt] at hr
    · cases h; exact law
  all_goals exact absurd rfl hq

end Held

/-- Settles O54: a row that leaves the cursor's handle leaves which slot is held, and OPEN, CLOSE, NEXT and RESET let
go of a live record or free the slot of a RETIRED one. -/
theorem stepKeepsHeldLaw : Obligations.StepKeepsHeldLaw := fun _ _ law h =>
  step_keeps (fun _ _ _ hu => hu) (fun _ _ _ => exec_keeps_heldLaw) (fun _ _ hu => hu) (fun _ _ hu => hu) law h

end Sys2Proof.Machine
end

section
/-! The notices of the rows: every row but the resets and the requests that set a level, a threshold or take an entry
raises notices and does nothing else to the list. From this the laws of the list and of ATTENTION (R197, R203), and what
becomes of a slot's handle and of a pending CLOCK_FALLBACK over a command (R1, R4, R203). -/

namespace Sys2Proof.Machine

open Relation (ReflTransGen)

/-! ### Notices raised in turn -/

/-- One notice raised at a threshold, of a kind whose level is above 0 (R199). -/
def Notices.Raise (threshold : Nat) (n n' : Notices) : Prop :=
  ∃ k subj data, n.levels.level k ≠ 0 ∧ n' =
    { n with
      entries := enterNotice n.entries n.levels k subj data
      attention := Notices.judgement { n with entries := enterNotice n.entries n.levels k subj data } threshold }

/-- Notices have been raised in turn, and the parameters stand. -/
abbrev State.Raised (s u : State) : Prop :=
  u.params = s.params ∧ ReflTransGen (Notices.Raise s.params.attentionThreshold) s.notices u.notices

section Acts
variable {s u : State}

theorem State.Raised.refl (s : State) : s.Raised s := ⟨rfl, .refl⟩

theorem State.Raised.raise (h : s.Raised u) (k : NoticeKind) (subj : Subject) (data : NoticeData) :
    s.Raised (u.raise k subj data) := by
  obtain ⟨params, raised⟩ := h
  rcases u.raise_cases k subj data with ⟨-, e⟩ | ⟨level, e⟩
  · rw [e]; exact ⟨params, raised⟩
  · rw [e]
    exact ⟨params, raised.tail ⟨k, subj, data, level, by rw [← params]; rfl⟩⟩

theorem State.Raised.create (h : s.Raised u) (span : Span) (part : Part) : s.Raised (u.create span part) := by
  rcases u.create_cases span part with ⟨i, t, -, e⟩ | ⟨-, e⟩
  · rw [e]; exact h
  · rw [e]; exact h.raise _ _ _

theorem State.Raised.confirm (h : s.Raised u) (i : Nat) : s.Raised (u.confirm i) := by
  rcases u.confirm_cases i with ⟨r, -, -, -, e⟩ | e
  · rw [e]; exact State.Raised.raise (u := u.putRecord i r.confirmed) h _ _ _
  · rwa [e]

theorem State.Raised.letGo (h : s.Raised u) : s.Raised u.letGo := by
  obtain ⟨table, cursor, e⟩ := u.letGo_writes
  rw [e]; exact h

theorem State.Raised.hold (h : s.Raised u) (i : Nat) : s.Raised (u.hold i) := by
  obtain ⟨table, cursor, e⟩ := u.hold_writes i
  rw [e]; exact h

theorem State.Raised.completeMove (h : s.Raised u) (c : Chain) (cut : Bool) : s.Raised (u.completeMove c cut) :=
  State.Raised.raise (u := u.setChain c _) h _ _ _

theorem State.Raised.failMove (h : s.Raised u) (c : Chain) (cause : FailCause) : s.Raised (u.failMove c cause) :=
  State.Raised.raise (u := u.setChain c _) h _ _ _

theorem State.Raised.lockCompletes (h : s.Raised u) (c : Chain) : s.Raised (u.lockCompletes c) := by
  unfold State.lockCompletes
  dsimp only
  split
  · exact State.Raised.completeMove (u := u.setChain c _) h _ _
  · exact h

theorem State.Raised.qualify (h : s.Raised u) : s.Raised u.qualify := by
  unfold State.qualify
  dsimp only
  split
  · exact h
  · exact State.Raised.raise (by exact h) _ _ _
  · exact h

theorem State.Raised.actOn (h : s.Raised u) (c : Chain) (v : Evaluation) : s.Raised (u.actOn c v) := by
  unfold State.actOn
  split
  · exact h
  · exact h.raise _ _ _

theorem State.Raised.midEpochWork (h : s.Raised u) : s.Raised u.midEpochWork := by
  obtain ⟨c, e⟩ := u.midEpochWork_eq
  rw [e]
  exact (State.Raised.actOn (u := u.recosted) h c _).actOn _ _

theorem State.Raised.foldl_raise (h : s.Raised u) (l : List AgingNotice) :
    s.Raised (l.foldl (fun acc n => acc.raise n.kind (.handle n.slot n.gen) .none) u) := by
  induction l generalizing u with
  | nil => exact h
  | cons n l ih => exact ih (h.raise _ _ _)

theorem State.Raised.boundaryWork (h : s.Raised u) : s.Raised u.boundaryWork := by
  unfold State.boundaryWork
  exact State.Raised.foldl_raise (by exact h) _

theorem State.Raised.atInstant (h : s.Raised u) (n : Nat) {work : State → State}
    (hw : ∀ v, s.Raised v → s.Raised (work v)) : s.Raised (u.atInstant n work) := by
  rcases u.atInstant_cases n work with ⟨-, e⟩ | ⟨-, e⟩
  · rw [e]; exact hw _ h
  · rwa [e]

theorem State.Raised.applyReport (h : s.Raised u) (rep : Report) (clock : ClockState) :
    s.Raised (u.applyReport rep clock) := by
  have hit (i : Nat) (r : Record) : s.Raised ((u.putRecord i r).confirm i) :=
    State.Raised.confirm (u := u.putRecord i r) h i
  unfold State.applyReport
  split
  · unfold State.applySwept
    split
    · exact hit _ _
    split
    · exact h
    split
    · exact h
    split
    · split
      · unfold State.acquirePeriod
        split
        · exact h
        · exact hit _ _
        · exact h
      · exact h
    · exact h.create _ _
  · unfold State.applyPreamble
    dsimp only
    split
    · exact hit _ _
    · exact h.create _ _
  · unfold State.applySteady
    split
    · exact hit _ _
    · exact h.create _ _

theorem State.Raised.commitTo (h : s.Raised u) (c : Cursor) (r q : Record) : s.Raised (u.commitTo c r q) := by
  unfold State.commitTo
  split
  · exact State.Raised.confirm (u := u.putRecord _ _) h _
  · exact h

theorem State.Raised.closeCommit (h : s.Raised u) (c : Cursor) : s.Raised (u.closeCommit c).state := by
  cases hr : u.table.record c.slot with
  | none => simpa [State.closeCommit, hr] using h
  | some r =>
    rcases State.closeCommit_cases hr with ⟨-, e⟩ | ⟨-, -, e⟩ | ⟨q, clamped, -, -, e⟩
    · rw [e]; exact h
    · rw [e]; exact h
    · rw [e]; exact (h.commitTo c r q).letGo

theorem State.Raised.closeDiscard (h : s.Raised u) (c : Cursor) : s.Raised (u.closeDiscard c).state := by
  unfold State.closeDiscard
  split
  · exact h
  · exact h.letGo

theorem State.Raised.openNext (h : s.Raised u) (held : Option Nat) (status : Byte) :
    s.Raised (u.openNext held status) := by
  unfold State.openNext
  split
  · exact h.hold _
  · exact h

end Acts

/-! ### Every row -/

/-- The rows that do more to the notices than raise some: the resets, and the requests that set a level or the
threshold, or take an entry. -/
def setsNotices : Instr → Bool
  | .powerOnReset | .reset | .setParameter | .setNoticeLevel | .fetchNotice => true
  | _ => false

section Rows
variable {s t : State}

theorem exec_raised {c : Instr} (hq : setsNotices c = false) (h : exec c s = .next t) : s.Raised t := by
  have id : s.Raised s := State.Raised.refl s
  have params : t.params = s.params := (exec_frame h).params (by cases c <;> simp_all [blocksOf, setsNotices])
  by_cases hb : Block.notices ∈ blocksOf c
  case neg => exact ⟨params, (exec_frame h).notices hb ▸ .refl⟩
  cases c
  case powerOnReset | reset | setParameter | setNoticeLevel | fetchNotice => cases hq
  case reportArrival frame =>
    change execReportArrival frame s = .next t at h
    unfold execReportArrival at h
    split at h
    · cases h
      unfold State.offerReport
      split
      · exact id
      · exact State.Raised.raise (by exact id) _ _ _
    · cases h; exact id
  case takeReport =>
    change execTakeReport s = .next t at h
    unfold execTakeReport at h
    split at h
    · next rep rest _ _ => cases h; exact State.Raised.applyReport (u := s.taken rest) id _ _
    · cases h; exact id
  case epochBoundary => cases h; exact id.atInstant _ fun v hv => hv.boundaryWork
  case midEpoch => cases h; exact id.atInstant _ fun v hv => hv.midEpochWork
  case abortMove =>
    change execAbortMove s = .next t at h
    unfold execAbortMove at h
    split at h
    swap
    · cases h; exact id
    split at h
    · cases h; exact id
    split at h
    · cases h; exact id.completeMove _ _
    · cases h; exact id
    all_goals cases h; exact id
  case lockAsserted c =>
    change execLockAsserted c s = .next t at h
    unfold execLockAsserted at h
    split at h
    · cases h; exact id
    dsimp only at h
    split at h
    · cases h; exact State.Raised.lockCompletes (u := s.setLock c true) id c
    all_goals cases h; exact id
  case lockDeasserted c =>
    change execLockDeasserted c s = .next t at h
    unfold execLockDeasserted at h
    split at h
    swap
    · cases h; exact id
    dsimp only at h
    split at h
    · cases h; exact State.Raised.failMove (u := s.setLock c false) id c _
    · cases h; exact State.Raised.failMove (u := s.setLock c false) id c _
    all_goals cases h; exact id
  case lockTimerExpiry c =>
    change execLockTimerExpiry c s = .next t at h
    unfold execLockTimerExpiry at h
    split at h
    · cases h; exact id.atInstant _ fun v hv => hv.failMove c .noLock
    · cases h; exact id
  case dwellTimerExpiry c =>
    change execDwellTimerExpiry c s = .next t at h
    unfold execDwellTimerExpiry at h
    split at h
    · cases h; exact id.atInstant _ fun v hv => hv.completeMove c false
    · cases h; exact id
  case setOrigin =>
    change execSetOrigin s = .next t at h
    unfold execSetOrigin at h
    split at h
    swap
    · cases h; exact id
    split at h
    · cases h; exact id
    split at h
    · cases h; exact id
    split at h
    · cases h; exact id
    next u hu =>
    cases h
    show s.Raised u
    split at hu
    · unfold State.pinRecord at hu
      split at hu
      · cases hu; exact id
      split at hu
      · cases hu
      split at hu
      · cases hu
      · cases hu; exact id.confirm _
    · cases hu
      unfold State.unpinRecord
      split <;> exact id
  case closeRecord =>
    change execCloseRecord s = .next t at h
    unfold execCloseRecord at h
    split at h
    swap
    · cases h; exact id
    split at h
    · cases h; exact id
    · cases h; exact id
    next commit k _ _ =>
    cases h
    cases commit
    · exact id.closeDiscard k
    · exact id.closeCommit k
  case nextRecord =>
    change execNextRecord s = .next t at h
    unfold execNextRecord at h
    split at h
    swap
    · cases h; exact id
    split at h
    · cases h; exact id.openNext _ _
    next k _ =>
    dsimp only at h
    split at h
    · cases h; exact id
    · cases h; exact (id.closeCommit k).openNext _ _
  case referenceLoss =>
    change execReferenceLoss s = .next t at h
    unfold execReferenceLoss at h
    split at h
    swap
    · cases h; exact id
    dsimp only at h
    split at h
    · cases h; exact State.Raised.raise (by exact id) _ _ _
    all_goals cases h; exact id
  case qualificationExpiry =>
    change execQualificationExpiry s = .next t at h
    unfold execQualificationExpiry at h
    split at h
    · cases h; exact id.atInstant _ fun v hv => hv.qualify
    all_goals cases h; exact id
  all_goals exact absurd hb (by simp [blocksOf])

end Rows

/-! ### What a raised notice makes of the list (R199 to R201) -/

section Enter
variable {es : List Entry} {l : Levels} {k : NoticeKind} {subj : Subject} {data : NoticeData}

/-- A modification of the first entry that meets a condition is one at a split of the list, or nothing meets it. -/
theorem modifyFirst_cases (p : Entry → Bool) (f : Entry → Entry) (es : List Entry) :
    ((∀ e ∈ es, p e = false) ∧ modifyFirst p f es = es)
      ∨ ∃ a e b, es = a ++ e :: b ∧ p e = true ∧ modifyFirst p f es = a ++ f e :: b := by
  induction es with
  | nil => exact .inl ⟨by simp, rfl⟩
  | cons e es ih =>
    by_cases he : p e = true
    · exact .inr ⟨[], e, es, rfl, he, by simp [modifyFirst, he]⟩
    rcases ih with ⟨hn, h⟩ | ⟨a, x, b, rfl, hx, h⟩
    · exact .inl ⟨by simpa [he] using hn, by simp [modifyFirst, he, h]⟩
    · exact .inr ⟨e :: a, x, b, rfl, hx, by simp [modifyFirst, he, h]⟩

/-- A notice is counted where its key is pending, enters as the newest, merges into an entry of its kind, replaces an
entry that is no CLOCK_FALLBACK, or is lost. -/
theorem enterNotice_cases (es : List Entry) (l : Levels) (k : NoticeKind) (subj : Subject) (data : NoticeData) :
    enterNotice es l k subj data = es
      ∨ (∃ a e b, es = a ++ e :: b ∧ enterNotice es l k subj data = a ++ e.fold data :: b)
      ∨ ((∀ e ∈ es, e.key ≠ (k, subj)) ∧ es.length < 16 ∧ enterNotice es l k subj data = es ++ [⟨k, subj, 1, data⟩])
      ∨ (∃ a e b, es = a ++ e :: b ∧ e.kind = k ∧ (e.key = (k, .several) ∨ ∀ x ∈ es, x.key ≠ (k, .several))
          ∧ enterNotice es l k subj data = a ++ { e.fold data with subject := .several } :: b)
      ∨ ∃ a e b, es = a ++ e :: b ∧ e.kind ≠ .clockFallback ∧ (∀ e ∈ es, e.key ≠ (k, subj))
          ∧ enterNotice es l k subj data = a ++ b ++ [⟨k, subj, 1, data⟩] := by
  by_cases pending : ∃ x ∈ es, x.key = (k, subj)
  · have h : enterNotice es l k subj data = modifyFirst (fun e => e.hasKey k subj) (fun e => e.fold data) es := by
      rw [enterNotice, if_pos (any_hasKey_iff.2 pending)]
    rcases modifyFirst_cases (fun e => e.hasKey k subj) (fun e => e.fold data) es with ⟨-, e⟩ | ⟨a, e, b, he, -, e'⟩
    · exact .inl (h.trans e)
    · exact .inr (.inl ⟨a, e, b, he, h.trans e'⟩)
  have absent : ∀ e ∈ es, e.key ≠ (k, subj) := fun e he hk => pending ⟨e, he, hk⟩
  by_cases room : es.length < noticeCapacity
  · exact .inr (.inr (.inl ⟨absent, room, enterNotice_of_room pending room⟩))
  by_cases kind : ∃ x ∈ es, x.kind = k
  · have h := enterNotice_of_full_of_kind (lv := l) (data := data) pending (not_lt.1 room) kind
    rw [h, mergeNotice]
    dsimp only
    split
    · rcases modifyFirst_cases (fun e => e.hasKey k .several) (fun e => { e.fold data with subject := .several }) es with
        ⟨-, e⟩ | ⟨a, e, b, he, hk, e'⟩
      · exact .inl e
      · have key := Entry.hasKey_iff.1 hk
        exact .inr (.inr (.inr (.inl ⟨a, e, b, he, congrArg Prod.fst key, .inl key, e'⟩)))
    · next several =>
      have absent' : ∀ x ∈ es, x.key ≠ (k, .several) := fun x hx hk => several (any_hasKey_iff.2 ⟨x, hx, hk⟩)
      rcases modifyFirst_cases (fun e => e.kind == k) (fun e => { e.fold data with subject := .several }) es with
        ⟨-, e⟩ | ⟨a, e, b, he, hk, e'⟩
      · exact .inl e
      · exact .inr (.inr (.inr (.inl ⟨a, e, b, he, beq_iff_eq.1 hk, .inr absent', e'⟩)))
  · have h := enterNotice_of_full_of_new_kind (lv := l) (subj := subj) (data := data) (not_lt.1 room)
      (fun x hx hk => kind ⟨x, hx, hk⟩)
    rw [h, replaceNotice]
    split
    · exact .inl rfl
    · next e he =>
      obtain ⟨mem, eligible⟩ := List.mem_filter.1 (firstBest_mem he)
      obtain ⟨a, b, -, split, erased⟩ := List.exists_erase_eq mem
      exact .inr (.inr (.inr (.inr ⟨a, e, b, split, by simpa using eligible, absent, by rw [erased]⟩)))

/-- The list's part of the law of the queues (R197). -/
def noticesLawful (es : List Entry) : Prop :=
  es.length ≤ 16 ∧ (es.map Entry.key).Nodup ∧ ∀ e ∈ es, 1 ≤ e.count ∧ e.count ≤ 255

theorem satInc255_range (n : Nat) : 1 ≤ satInc255 n ∧ satInc255 n ≤ 255 := by
  simp only [satInc255]; omega

theorem enterNotice_lawful (law : noticesLawful es) : noticesLawful (enterNotice es l k subj data) := by
  obtain ⟨len, nodup, counts⟩ := law
  rcases enterNotice_cases es l k subj data with
    h | ⟨a, e, b, rfl, h⟩ | ⟨absent, room, h⟩ | ⟨a, e, b, rfl, kind, several, h⟩ | ⟨a, e, b, rfl, -, absent, h⟩
  · rw [h]; exact ⟨len, nodup, counts⟩
  · rw [h]
    refine ⟨by simpa using len, by simpa using nodup, fun x hx => ?_⟩
    rcases List.mem_append.1 hx with hx | hx
    · exact counts x (List.mem_append_left _ hx)
    rcases List.mem_cons.1 hx with rfl | hx
    · exact satInc255_range _
    · exact counts x (List.mem_append_right _ (List.mem_cons_of_mem _ hx))
  · rw [h]
    refine ⟨by simp; omega, ?_, fun x hx => ?_⟩
    · rw [List.map_append, List.nodup_append]
      refine ⟨nodup, by simp, ?_⟩
      simp only [List.mem_map, List.map_cons, List.map_nil, List.mem_singleton]
      rintro _ ⟨x, hx, rfl⟩ _ rfl
      exact absent x hx
    · rcases List.mem_append.1 hx with hx | hx
      · exact counts x hx
      · rw [List.mem_singleton.1 hx]; simp
  · rw [h]
    refine ⟨by simpa using len, ?_, fun x hx => ?_⟩
    · have key : Entry.key { e.fold data with subject := .several } = (k, .several) := by rw [← kind]; rfl
      rcases several with same | absent
      · simpa [key, same] using nodup
      · have fresh : ∀ x ∈ a ++ b, x.key ≠ (k, .several) := fun x hx => absent x (by
          rcases List.mem_append.1 hx with hx | hx
          · exact List.mem_append_left _ hx
          · exact List.mem_append_right _ (List.mem_cons_of_mem _ hx))
        rw [List.map_append, List.map_cons, key]
        rw [List.map_append, List.map_cons, List.nodup_middle, List.nodup_cons] at nodup
        rw [List.nodup_middle, List.nodup_cons, ← List.map_append]
        refine ⟨?_, by rw [List.map_append]; exact nodup.2⟩
        rintro hm
        obtain ⟨x, hx, hk⟩ := List.mem_map.1 hm
        exact fresh x hx hk
    · rcases List.mem_append.1 hx with hx | hx
      · exact counts x (List.mem_append_left _ hx)
      rcases List.mem_cons.1 hx with rfl | hx
      · exact satInc255_range _
      · exact counts x (List.mem_append_right _ (List.mem_cons_of_mem _ hx))
  · rw [h]
    have sub : ∀ x ∈ a ++ b, x ∈ a ++ e :: b := fun x hx => by
      rcases List.mem_append.1 hx with hx | hx
      · exact List.mem_append_left _ hx
      · exact List.mem_append_right _ (List.mem_cons_of_mem _ hx)
    refine ⟨by simpa [Nat.add_assoc] using len, ?_, fun x hx => ?_⟩
    · rw [List.map_append, List.map_cons, List.nodup_middle, List.nodup_cons, ← List.map_append] at nodup
      rw [List.map_append, List.nodup_append]
      refine ⟨nodup.2, by simp, ?_⟩
      simp only [List.mem_map, List.map_cons, List.map_nil, List.mem_singleton]
      rintro _ ⟨x, hx, rfl⟩ _ rfl
      exact absent x (sub x hx)
    · rcases List.mem_append.1 hx with hx | hx
      · exact counts x (sub x hx)
      · rw [List.mem_singleton.1 hx]; simp

/-- A pending CLOCK_FALLBACK is never replaced, and keeps its kind where it is counted or merged (R200, R201). -/
theorem enterNotice_clockFallback (h : ∃ e ∈ es, e.kind = .clockFallback) :
    ∃ e ∈ enterNotice es l k subj data, e.kind = .clockFallback := by
  obtain ⟨x, hx, hk⟩ := h
  rcases enterNotice_cases es l k subj data with
    h | ⟨a, e, b, rfl, h⟩ | ⟨-, -, h⟩ | ⟨a, e, b, rfl, -, -, h⟩ | ⟨a, e, b, rfl, ne, -, h⟩
  · rw [h]; exact ⟨x, hx, hk⟩
  · rw [h]
    simp only [List.mem_append, List.mem_cons] at hx ⊢
    rcases hx with hx | rfl | hx
    · exact ⟨x, .inl hx, hk⟩
    · exact ⟨_, .inr (.inl rfl), hk⟩
    · exact ⟨x, .inr (.inr hx), hk⟩
  · rw [h]; exact ⟨x, List.mem_append_left _ hx, hk⟩
  · rw [h]
    simp only [List.mem_append, List.mem_cons] at hx ⊢
    rcases hx with hx | rfl | hx
    · exact ⟨x, .inl hx, hk⟩
    · exact ⟨_, .inr (.inl rfl), hk⟩
    · exact ⟨x, .inr (.inr hx), hk⟩
  · rw [h]
    simp only [List.mem_append, List.mem_cons] at hx ⊢
    rcases hx with hx | rfl | hx
    · exact ⟨x, .inl (.inl hx), hk⟩
    · exact absurd hk ne
    · exact ⟨x, .inl (.inr hx), hk⟩

end Enter

section Laws
variable {s t : State}

/-- A property of the entries that a raised notice keeps holds after notices raised in turn. -/
theorem State.Raised.entries {P : List Entry → Prop} (h : s.Raised t)
    (enters : ∀ es l k subj data, P es → P (enterNotice es l k subj data)) (hs : P s.notices.entries) :
    P t.notices.entries := by
  obtain ⟨-, raised⟩ := h
  generalize t.notices = n at raised ⊢
  induction raised with
  | refl => exact hs
  | tail _ step ih =>
    obtain ⟨k, subj, data, -, e⟩ := step
    rw [e]
    exact enters _ _ _ _ _ ih

/-- The levels stand over raised notices. -/
theorem State.Raised.levels (h : s.Raised t) : t.notices.levels = s.notices.levels := by
  obtain ⟨-, raised⟩ := h
  generalize t.notices = n at raised ⊢
  induction raised with
  | refl => rfl
  | tail _ step ih =>
    obtain ⟨k, subj, data, -, e⟩ := step
    rw [e]
    exact ih

/-- A raised notice has ATTENTION judged again (R203). -/
theorem State.Raised.attention (h : s.Raised t) (law : s.AttentionLaw) : t.AttentionLaw := by
  obtain ⟨params, raised⟩ := h
  unfold State.AttentionLaw
  rw [params]
  generalize t.notices = n at raised ⊢
  cases raised with
  | refl => exact law
  | tail _ step =>
    obtain ⟨k, subj, data, -, e⟩ := step
    rw [e]
    exact Notices.judgement_iff

/-- An erased entry leaves the list lawful. -/
theorem noticesLawful.erase {es : List Entry} (law : noticesLawful es) (e : Entry) : noticesLawful (es.erase e) := by
  obtain ⟨len, nodup, counts⟩ := law
  exact ⟨List.length_erase_le.trans len, nodup.sublist (List.erase_sublist.map _), fun x hx => counts x (List.mem_of_mem_erase hx)⟩

theorem exec_keeps_noticesLawful {c : Instr} (h : exec c s = .next t) (law : noticesLawful s.notices.entries) :
    noticesLawful t.notices.entries := by
  by_cases hq : setsNotices c = false
  · exact (exec_raised hq h).entries (fun _ _ _ _ _ => enterNotice_lawful) law
  have empty : noticesLawful [] := ⟨by simp, by simp, by simp⟩
  cases c
  case powerOnReset => cases h; exact empty
  case reset =>
    change execReset s = .next t at h
    unfold execReset at h
    split at h
    · cases h; exact empty
    · cases h; exact law
  case setParameter =>
    change execSetParameter s = .next t at h
    unfold execSetParameter at h
    split at h
    swap
    · cases h; exact law
    split at h
    · cases h; exact law
    · cases h
      simp only [State.answerOk, State.notices_finish]
      rw [State.setParam_frame]
      exact law
  case setNoticeLevel =>
    change execSetNoticeLevel s = .next t at h
    unfold execSetNoticeLevel at h
    split at h
    swap
    · cases h; exact law
    split at h
    · cases h; exact law
    · cases h; exact law
  case fetchNotice =>
    change execFetchNotice s = .next t at h
    unfold execFetchNotice at h
    split at h
    swap
    · cases h; exact law
    split at h
    · cases h; exact law
    · cases h; exact law.erase _
  all_goals exact absurd rfl hq

theorem exec_keeps_attentionLaw {c : Instr} (law : s.AttentionLaw) (h : exec c s = .next t) : t.AttentionLaw := by
  by_cases hq : setsNotices c = false
  · exact (exec_raised hq h).attention law
  cases c
  case powerOnReset => cases h; simp [State.AttentionLaw, State.reset, Notices.reset, Notices.Calls]
  case reset =>
    change execReset s = .next t at h
    unfold execReset at h
    split at h
    · cases h; simp [State.AttentionLaw, State.answer, State.softReset, Notices.softReset, Notices.Calls]
    · cases h; exact law
  case setParameter =>
    change execSetParameter s = .next t at h
    unfold execSetParameter at h
    split at h
    swap
    · cases h; exact law
    next id _ _ _ =>
    split at h
    · cases h; exact law
    · cases h
      by_cases hid : id = thresholdId
      · subst hid
        show State.AttentionLaw (State.setParam _ _ _)
        rw [State.setParam_threshold]
        exact State.judge_attention_iff
      · show State.AttentionLaw (State.setParam _ _ _)
        rw [State.setParam_of_ne_threshold _ _ hid]
        have threshold (v : Nat) : (s.params.write id v).attentionThreshold = s.params.attentionThreshold := by
          unfold Params.write
          split <;> first | rfl | skip
          next h => exact absurd (BitVec.eq_of_toNat_eq h) hid
        simpa only [State.AttentionLaw, threshold] using law
  case setNoticeLevel =>
    change execSetNoticeLevel s = .next t at h
    unfold execSetNoticeLevel at h
    split at h
    swap
    · cases h; exact law
    split at h
    · cases h; exact law
    · cases h; exact State.judge_attention_iff
  case fetchNotice =>
    change execFetchNotice s = .next t at h
    unfold execFetchNotice at h
    split at h
    swap
    · cases h; exact law
    split at h
    · cases h; exact law
    · cases h; exact State.judge_attention_iff
  all_goals exact absurd rfl hq

/-! ### The queue of queries (R85) -/

/-- What a command makes of the scheduler queue: it stays, takes a query at its tail while it holds fewer than four,
gives its head, or is cleared. -/
theorem exec_queries {c : Instr} (h : exec c s = .next t) :
    t.predictor.queue = s.predictor.queue
      ∨ (s.predictor.queue.length < 4 ∧ ∃ q, t.predictor.queue = s.predictor.queue ++ [q])
      ∨ (∃ q, s.predictor.queue = q :: t.predictor.queue) ∨ t.predictor.queue = [] := by
  by_cases hb : Block.predictor ∈ blocksOf c
  case neg => exact .inl (by rw [(exec_frame h).predictor hb])
  have kept (u : State) : u.handOver.predictor.queue = u.predictor.queue := by rw [u.handOver_frame]
  cases c
  case powerOnReset => cases h; exact .inr (.inr (.inr rfl))
  case queryArrival frame =>
    change execQueryArrival frame s = .next t at h
    unfold execQueryArrival at h
    split at h
    · cases h; exact .inl rfl
    split at h
    · cases h; exact .inl rfl
    split at h
    · next room => cases h; exact .inr (.inl ⟨room, _, kept _⟩)
    · cases h; exact .inl rfl
  case evaluationStart => cases h; exact .inl (kept s)
  case delivery =>
    change execDelivery s = .next t at h
    unfold execDelivery at h
    split at h
    · cases h; exact .inl rfl
    dsimp only at h
    split at h
    · split at h
      · next q rest hq =>
        cases h
        rw [kept]
        exact .inr (.inr (.inl ⟨q, hq⟩))
      · cases h; exact .inl (kept _)
    · cases h; exact .inl (kept _)
  case answerFrameSent =>
    change execAnswerFrameSent s = .next t at h
    unfold execAnswerFrameSent at h
    split at h <;> cases h <;> exact .inl rfl
  case preview =>
    change execPreview s = .next t at h
    unfold execPreview at h
    split at h
    swap
    · cases h; exact .inl rfl
    dsimp only at h
    split at h
    · cases h; exact .inl rfl
    · cases h; exact .inl (kept _)
  case abort b =>
    cases h
    rcases s.written_cases .execution _ with ⟨-, -, e⟩ | ⟨-, e⟩
    · rw [e]
      split
      · exact .inl rfl
      split
      · rw [kept]
        refine .inl ?_
        show (s.predictor.withdrawPreview).queue = _
        unfold Predictor.withdrawPreview
        split <;> rfl
      · exact .inl rfl
    · rw [e]; exact .inl rfl
  case reset =>
    change execReset s = .next t at h
    unfold execReset at h
    split at h
    · cases h; exact .inr (.inr (.inr rfl))
    · cases h; exact .inl rfl
  all_goals exact absurd hb (by simp [blocksOf])

/-- A queue that stays, takes an entry while it has room, gives its head or is cleared keeps within its capacity. -/
theorem length_le_of_queue {α : Type} {l l' : List α} {n : Nat} (h : l' = l ∨ (l.length < n ∧ ∃ x, l' = l ++ [x])
    ∨ (∃ x, l = x :: l') ∨ l' = []) (hl : l.length ≤ n) : l'.length ≤ n := by
  rcases h with rfl | ⟨room, x, rfl⟩ | ⟨x, rfl⟩ | rfl
  · exact hl
  · simpa using room
  · exact (Nat.le_succ _).trans hl
  · exact Nat.zero_le _

theorem exec_keeps_queueLaw {c : Instr} (law : s.QueueLaw) (h : exec c s = .next t) : t.QueueLaw := by
  obtain ⟨reports, queries, len, nodup, counts⟩ := law
  obtain ⟨len', nodup', counts'⟩ := exec_keeps_noticesLawful h ⟨len, nodup, counts⟩
  refine ⟨length_le_of_queue (n := 32) ?_ reports, length_le_of_queue (exec_queries h) queries, len', nodup', counts'⟩
  exact (exec_reports h).imp id (Or.imp (fun ⟨room, r, _, hr⟩ => ⟨room, r, hr⟩) id)

end Laws

/-- Settles O55: each queue takes an entry only while it has room, a raised notice keeps the list lawful, and whatever
changes the entries, the levels or the threshold has ATTENTION judged again. -/
theorem stepKeepsQueueAndAttentionLaws : Obligations.StepKeepsQueueAndAttentionLaws := fun _ _ h =>
  ⟨fun law => step_keeps (fun _ _ _ hu => hu) (fun _ _ _ => exec_keeps_queueLaw) (fun _ _ hu => hu) (fun _ _ hu => hu)
    law h,
   fun law => step_keeps (fun _ _ _ hu => hu) (fun _ _ _ => exec_keeps_attentionLaw) (fun _ _ hu => hu)
    (fun _ _ hu => hu) law h⟩

/-! ### Handles and the clock notice (R1, R4, R203) -/

section Handles
variable {s : State} {moves : Bool}

/-- A slot keeps its generation and the kind of its record, or it is freed and its generation counted on (R1, R4). -/
theorem Slot.Step.handle {x y : Slot} {r : Record} (h : Slot.Step s moves x y) (hr : x.record = some r) :
    (y.gen = x.gen ∧ y.record.map Record.kind = some r.kind) ∨ y.gen = x.gen + 1 := by
  cases h with
  | free vacant => simp [vacant] at hr
  | kept was works =>
    cases hr.symm.trans was
    refine .inl ⟨rfl, congrArg some ?_⟩
    exact ReflTransGen.keeps (P := fun q => q.kind = r.kind) (fun _ _ hq w => w.kind_eq.trans hq) works rfl
  | freed | taken => exact .inr rfl
  | entered vacant => simp [vacant] at hr

theorem Slot.Step.gen_of_free {x y : Slot} (h : Slot.Step s moves x y) (hx : x.record = none) : y.gen = x.gen := by
  cases h with
  | free | entered | kept => rfl
  | freed was | taken was => simp [hx] at was

end Handles

/-- Settles O59: of each slot by what a command makes of it, and of the notice by what a raised notice makes of the
list; a set level or threshold leaves the entries. -/
theorem handlesAndClockNoticeEndure : Obligations.HandlesAndClockNoticeEndure := by
  intro c s t hc h
  have step := exec_table_step hc h
  refine ⟨fun i r hr => (step.slot i).handle hr, fun i hi => (step.slot i).gen_of_free hi, fun hreset hfetch pending => ?_⟩
  by_cases hq : setsNotices c = false
  · exact (exec_raised hq h).entries (P := fun es => ∃ e ∈ es, e.kind = .clockFallback)
      (fun _ _ _ _ _ => enterNotice_clockFallback) pending
  cases c
  case powerOnReset => exact absurd rfl hc
  case reset => exact absurd rfl hreset
  case fetchNotice => exact absurd rfl hfetch
  case setParameter =>
    change execSetParameter s = .next t at h
    unfold execSetParameter at h
    split at h
    swap
    · cases h; exact pending
    split at h
    · cases h; exact pending
    · cases h
      simp only [State.answerOk, State.notices_finish]
      rw [State.setParam_frame]
      exact pending
  case setNoticeLevel =>
    change execSetNoticeLevel s = .next t at h
    unfold execSetNoticeLevel at h
    split at h
    swap
    · cases h; exact pending
    split at h
    · cases h; exact pending
    · cases h; exact pending
  all_goals exact absurd rfl hq

end Sys2Proof.Machine
end

section
/-! The law of the two chains (R109, R112, R114): each chain keeps it on its own against the tune map and the domain, and
the two share no channel. -/

namespace Sys2Proof.Machine

/-! ### One chain against the tune map and the domain -/

/-- What the law asks of one chain: its row of R109, permitted channels, and a set tune code where the record shows
that one is needed (R114). -/
def Radio.Admits (r : Radio) (x : ChainRec) : Prop :=
  x.Lawful ∧ (∀ ch ∈ x.channels, r.domain.permits ch = true) ∧ (∀ ch, x.target = some ch → r.tuneCode ch ≠ 0)
    ∧ ∀ ch, x.MovedTo ch → r.tuneCode ch ≠ 0

theorem ChainRec.mem_channels {x : ChainRec} {ch : Nat} : ch ∈ x.channels ↔ x.present = some ch ∨ x.target = some ch := by
  simp [ChainRec.channels]

theorem ChainRec.uses_iff {x : ChainRec} {ch : Nat} : x.uses ch = true ↔ ch ∈ x.channels := by
  simp [ChainRec.uses, ChainRec.mem_channels]

/-- The law of the radio, chain by chain. -/
theorem Radio.lawful_iff {r : Radio} : r.Lawful ↔ (∀ c, r.Admits (r.chain c))
    ∧ (∀ c, ∀ ch ∈ (r.chain c).channels, ch ∉ (r.chain (otherChain c)).channels)
    ∧ (r.domainLock = false → r.domain = .A) := by
  constructor
  · rintro ⟨a, b, apart, permitted, coded, movedA, movedB, lock⟩
    simp only [List.mem_append, Option.mem_toList] at permitted coded
    refine ⟨fun c => ?_, fun c => ?_, lock⟩
    · cases c with
      | A => exact ⟨a, fun ch h => permitted ch (.inl h), fun ch h => coded ch (.inl h), fun ch h => movedA ch h.1 h⟩
      | B => exact ⟨b, fun ch h => permitted ch (.inr h), fun ch h => coded ch (.inr h), fun ch h => movedB ch h.1 h⟩
    · cases c with
      | A => exact apart
      | B => exact fun ch hb ha => apart ch ha hb
  · rintro ⟨admits, apart, lock⟩
    obtain ⟨a, permA, codedA, movedA⟩ := admits .A
    obtain ⟨b, permB, codedB, movedB⟩ := admits .B
    refine ⟨a, b, apart .A, ?_, ?_, fun ch _ h => movedA ch h, fun ch _ h => movedB ch h, lock⟩
    · simp only [List.mem_append]
      exact fun ch h => h.elim (permA ch) (permB ch)
    · simp only [List.mem_append, Option.mem_toList]
      exact fun ch h => h.elim (codedA ch) (codedB ch)

section Set
variable {r : Radio} {c : Chain} {x : ChainRec}

theorem Radio.Admits.setChain (h : r.Admits x) (c : Chain) (y : ChainRec) : (r.setChain c y).Admits x := by
  unfold Radio.Admits Radio.tuneCode at h ⊢
  rwa [Radio.setChain_domain, Radio.setChain_tuneMap]

/-- A chain changes within the law: it is admitted, and uses no channel of the other. -/
theorem Radio.Lawful.setChain (law : r.Lawful) (admits : r.Admits x)
    (apart : ∀ ch ∈ x.channels, ch ∉ (r.chain (otherChain c)).channels) : (r.setChain c x).Lawful := by
  obtain ⟨all, disjoint, lock⟩ := Radio.lawful_iff.1 law
  refine Radio.lawful_iff.2 ⟨fun d => ?_, fun d => ?_, by simpa using lock⟩
  · by_cases e : d = c
    · subst e
      rw [Radio.chain_setChain]
      exact admits.setChain _ _
    · rw [otherChain_of_ne e, Radio.chain_setChain_other]
      exact (all _).setChain _ _
  · by_cases e : d = c
    · subst e
      simpa using apart
    · rw [otherChain_of_ne e, Radio.chain_setChain_other, otherChain_otherChain, Radio.chain_setChain]
      exact fun ch hd hx => apart ch hx hd

/-- A chain that takes no new channel shares none with the other. -/
theorem Radio.Lawful.setChain_of_subset (law : r.Lawful) (admits : r.Admits x)
    (sub : ∀ ch ∈ x.channels, ch ∈ (r.chain c).channels) : (r.setChain c x).Lawful :=
  law.setChain admits fun ch h => (Radio.lawful_iff.1 law).2.1 c ch (sub ch h)

theorem Radio.Lawful.admits (law : r.Lawful) (c : Chain) : r.Admits (r.chain c) := (Radio.lawful_iff.1 law).1 c

/-- The checks of R114 that a move has passed. -/
theorem Radio.check_eq_none {ch : Nat} {coded : Bool} (h : r.check c ch coded = none) :
    (r.chain c).state.takesRequest = true ∧ r.domain.permits ch = true
      ∧ ch ∉ (r.chain (otherChain c)).channels ∧ (coded = true → r.tuneCode ch ≠ 0) := by
  unfold Radio.check at h
  split at h
  · cases h
  split at h
  · cases h
  split at h
  · cases h
  split at h
  · cases h
  next busy permits uses code =>
  exact ⟨by simpa using busy, by simpa using permits, fun m => uses (ChainRec.uses_iff.2 m), fun hc hz => code ⟨hc, hz⟩⟩

/-- A chain that takes a request has no target and no timer running (R109). -/
theorem ChainRec.Lawful.takesRequest (law : x.Lawful) (h : x.state.takesRequest = true) :
    x.target = none ∧ x.lockTimer = none ∧ x.dwellTimer = none := by
  obtain ⟨-, -, target, lockTimer, dwell⟩ := law
  have ret : x.state ≠ .retuning := fun e => by simp [e, ChainState.takesRequest] at h
  have dwl : x.state ≠ .dwell := fun e => by simp [e, ChainState.takesRequest] at h
  exact ⟨by simpa [ret] using target, by simpa [ret] using lockTimer, by simpa [dwl] using dwell⟩

/-- A chain that fails is admitted everywhere: it uses no channel (R120, R122). -/
theorem Radio.admits_of_no_channel (hp : x.present = none) (ht : x.target = none) (hl : x.lockTimer = none)
    (hd : x.dwellTimer = none) (hs : x.state = .fault ∨ x.state = .unset) : r.Admits x := by
  refine ⟨⟨by simp [hp], ?_, ?_, ?_, ?_⟩, by simp [ChainRec.channels, hp, ht], by simp [ht], by simp [hp]⟩
  · rcases hs with e | e <;> simp [e]
  · rcases hs with e | e <;> simp [e, ht]
  · rcases hs with e | e <;> simp [e, hl]
  · rcases hs with e | e <;> simp [e, hd]

end Set

/-! ### The acts of the rows -/

section Acts
variable {s : State} {c : Chain}

theorem State.startMove_lawful {ch : Nat} (law : s.radio.Lawful) (origin : MoveOrigin)
    (h : s.radio.check c ch true = none) : (s.startMove c ch origin).radio.Lawful := by
  obtain ⟨takes, permits, apart, coded⟩ := Radio.check_eq_none h
  obtain ⟨lawC, perm, -, -⟩ := law.admits c
  obtain ⟨target, lockTimer, dwell⟩ := lawC.takesRequest takes
  have channels (ch' : Nat) (h : (s.radio.chain c).present = some ch' ∨ some ch = some ch') :
      ch' ∈ (s.radio.chain c).channels ∨ ch' = ch :=
    h.imp (fun h => ChainRec.mem_channels.2 (.inl h)) (fun h => (Option.some.inj h).symm)
  refine law.setChain ⟨⟨by simp, by simp, by simp, by simp, by simp [State.chain, dwell]⟩, fun ch' h => ?_, ?_, by simp⟩
    fun ch' h => ?_
  · rcases channels ch' (ChainRec.mem_channels.1 h) with m | rfl
    · exact perm ch' m
    · exact permits
  · rintro _ ⟨⟩
    exact coded rfl
  · rcases channels ch' (ChainRec.mem_channels.1 h) with m | rfl
    · exact (Radio.lawful_iff.1 law).2.1 c ch' m
    · exact apart

/-- A chain that has lost or never had its channels keeps the law. -/
theorem State.failMove_lawful (law : s.radio.Lawful) (c : Chain) (cause : FailCause) :
    (s.failMove c cause).radio.Lawful := by
  rw [State.failMove, State.raise_radio]
  exact law.setChain_of_subset (Radio.admits_of_no_channel rfl rfl rfl rfl (.inl rfl)) (by simp [ChainRec.channels])

/-- A move completes from DWELL on its present channel. -/
theorem State.completeMove_lawful (law : s.radio.Lawful) (hd : (s.chain c).state = .dwell) (cut : Bool) :
    (s.completeMove c cut).radio.Lawful := by
  rw [State.completeMove, State.raise_radio]
  obtain ⟨⟨-, present, target, lockTimer, -⟩, perm, coded, moved⟩ := law.admits c
  change (s.radio.chain c).state = .dwell at hd
  refine law.setChain_of_subset ⟨⟨by simp, fun _ => present (.inr hd), ?_, ?_, by simp⟩, perm, coded, fun ch h => ?_⟩
    fun ch h => h
  · simpa [hd, State.chain] using target
  · simpa [hd, State.chain] using lockTimer
  · exact moved ch ⟨h.1, .inl hd⟩

theorem State.setLock_lawful (law : s.radio.Lawful) (c : Chain) (level : Bool) : (s.setLock c level).radio.Lawful :=
  law.setChain_of_subset (law.admits c) fun _ h => h

/-- The completing lock makes the target the present channel (R119). -/
theorem State.lockCompletes_lawful (law : s.radio.Lawful) (hr : (s.chain c).state = .retuning) :
    (s.lockCompletes c).radio.Lawful := by
  obtain ⟨⟨-, -, target, -, dwell⟩, perm, coded, -⟩ := law.admits c
  change (s.radio.chain c).state = .retuning at hr
  have some : (s.radio.chain c).target.isSome = true := target.2 hr
  have stopped : (s.radio.chain c).dwellTimer = none := by simpa [hr] using dwell
  have sub (ch : Nat) (h : (s.radio.chain c).target = Option.some ch ∨ none = Option.some ch) : ch ∈ (s.radio.chain c).channels :=
    ChainRec.mem_channels.2 (.inr (h.resolve_right nofun))
  have settled (x : ChainRec) (hp : x.present = (s.radio.chain c).target) (ht : x.target = none) (hl : x.lockTimer = none)
      (hx : x.state = .ready ∧ x.dwellTimer = none ∨ x.state = .dwell ∧ x.dwellTimer.isSome = true) :
      (s.radio.setChain c x).Lawful := by
    refine law.setChain_of_subset ⟨⟨fun _ => ?_, fun _ => hp ▸ some, ?_, ?_, ?_⟩, fun ch h => ?_, by simp [ht], fun ch h => ?_⟩
      fun ch h => ?_
    · exact hx.elim (fun h => .inl h.1) (fun h => .inr (.inr h.1))
    · rcases hx with ⟨e, -⟩ | ⟨e, -⟩ <;> simp [ht, e]
    · rcases hx with ⟨e, -⟩ | ⟨e, -⟩ <;> simp [hl, e]
    · rcases hx with ⟨e, d⟩ | ⟨e, d⟩ <;> simp [e, d]
    · exact perm ch (sub ch (by rw [← hp, ← ht]; exact ChainRec.mem_channels.1 h))
    · exact coded ch (hp ▸ h.1)
    · exact sub ch (by rw [← hp, ← ht]; exact ChainRec.mem_channels.1 h)
  unfold State.lockCompletes
  dsimp only
  split
  · rw [State.completeMove, State.raise_radio, State.radio_setChain, State.chain_setChain]
    have twice (x y : ChainRec) : ((s.setChain c x).radio.setChain c y) = s.radio.setChain c y := by cases c <;> rfl
    rw [twice]
    exact settled _ rfl rfl rfl (.inl ⟨rfl, rfl⟩)
  · exact settled _ rfl rfl rfl (.inr ⟨rfl, rfl⟩)

theorem State.actOn_lawful (law : s.radio.Lawful) (c : Chain) (v : Evaluation) : (s.actOn c v).radio.Lawful := by
  rcases s.actOn_cases c v with ⟨-, e⟩ | ⟨best, -, e⟩
  · rw [e]; exact law.setChain_of_subset (law.admits c) fun _ h => h
  · rw [e]; exact law.setChain_of_subset (law.admits c) fun _ h => h

theorem State.midEpochWork_lawful (law : s.radio.Lawful) : s.midEpochWork.radio.Lawful := by
  obtain ⟨c, e⟩ := s.midEpochWork_eq
  rw [e]
  exact State.actOn_lawful (State.actOn_lawful (s := s.recosted) law c _) _ _

/-- SET CHANNEL places a chain that takes requests on a permitted channel which the other does not use (R117). -/
theorem State.place_lawful {ch : Nat} (law : s.radio.Lawful) (h : s.radio.check c ch false = none) :
    (s.setChain c { s.chain c with state := .ready, present := some ch, holdOff := 0, origin := .control }).radio.Lawful := by
  obtain ⟨takes, permits, apart, -⟩ := Radio.check_eq_none h
  obtain ⟨target, lockTimer, dwell⟩ := (law.admits c).1.takesRequest takes
  have only (ch' : Nat) (h : some ch = some ch' ∨ (s.radio.chain c).target = some ch') : ch' = ch :=
    h.elim (fun h => (Option.some.inj h).symm) (fun h => by simp [target] at h)
  refine law.setChain ⟨⟨by simp, by simp, by simp [State.chain, target], by simp [State.chain, lockTimer],
      by simp [State.chain, dwell]⟩, fun ch' h => ?_, by simp [State.chain, target], by simp⟩ fun ch' h => ?_
  · rw [only ch' (ChainRec.mem_channels.1 h)]; exact permits
  · rw [only ch' (ChainRec.mem_channels.1 h)]; exact apart

theorem moveChannelOf_eq_some {b : Byte} {ch : Nat} (h : moveChannelOf b = some ch) : ch = b.toNat ∧ 1 ≤ ch ∧ ch ≤ 14 := by
  unfold moveChannelOf at h
  split at h
  · next range => cases h; exact ⟨rfl, range⟩
  · cases h

/-- A written tune code keeps the law, where it is not 0 or its channel is not in use (R110). -/
theorem Radio.Lawful.setTuneCode {r : Radio} {ch : Nat} {code : BitVec 12} (law : r.Lawful) (lo : 1 ≤ ch)
    (unused : code = 0 → ∀ c, ch ∉ (r.chain c).channels) :
    Radio.Lawful { r with tuneMap := r.tuneMap.set (ch - 1) code } := by
  obtain ⟨all, disjoint, lock⟩ := Radio.lawful_iff.1 law
  have chains (c : Chain) : Radio.chain { r with tuneMap := r.tuneMap.set (ch - 1) code } c = r.chain c := by
    cases c <;> rfl
  have stays (c : Chain) (ch' : Nat) (mem : ch' ∈ (r.chain c).channels) (set : r.tuneCode ch' ≠ 0) :
      Radio.tuneCode { r with tuneMap := r.tuneMap.set (ch - 1) code } ch' ≠ 0 := by
    have permitted := (all c).2.1 ch' mem
    have lo' : 1 ≤ ch' := by
      simp only [Domain.permits, Bool.and_eq_true, decide_eq_true_eq] at permitted
      exact permitted.1
    simp only [Radio.tuneCode, List.getD] at set ⊢
    by_cases e : ch' = ch
    · subst e
      have lt : ch' - 1 < r.tuneMap.length := by
        by_contra hlt
        exact set (by simp [List.getElem?_eq_none (not_lt.1 hlt)])
      have hc : code ≠ 0 := fun hz => unused hz c mem
      simpa [lt] using hc
    · rwa [List.getElem?_set_ne (by omega)]
  refine Radio.lawful_iff.2 ⟨fun c => ?_, fun c => ?_, lock⟩
  · obtain ⟨lawC, perm, coded, moved⟩ := all c
    rw [chains]
    exact ⟨lawC, perm, fun ch' h => stays c ch' (ChainRec.mem_channels.2 (.inr h)) (coded ch' h),
      fun ch' h => stays c ch' (ChainRec.mem_channels.2 (.inl h.1)) (moved ch' h)⟩
  · rw [chains, chains]; exact disjoint c

/-- The domain is set once, from A, whose channels every domain permits (R112). -/
theorem Radio.Lawful.setDomain {r : Radio} (law : r.Lawful) (unlocked : r.domainLock = false) (d : Domain) :
    Radio.Lawful { r with domain := d, domainLock := true } := by
  obtain ⟨all, disjoint, lock⟩ := Radio.lawful_iff.1 law
  have chains (c : Chain) : Radio.chain { r with domain := d, domainLock := true } c = r.chain c := by cases c <;> rfl
  refine Radio.lawful_iff.2 ⟨fun c => ?_, fun c => ?_, by simp⟩
  · obtain ⟨lawC, perm, coded, moved⟩ := all c
    rw [chains]
    refine ⟨lawC, fun ch h => ?_, coded, moved⟩
    have permitted := perm ch h
    rw [lock unlocked] at permitted
    simp only [Domain.permits, Bool.and_eq_true, decide_eq_true_eq] at permitted ⊢
    have top : 11 ≤ d.highest := by cases d <;> simp [Domain.highest]
    exact ⟨permitted.1, permitted.2.trans top⟩
  · rw [chains, chains]; exact disjoint c

/-- Chains without a channel meet the law in domain A. -/
theorem Radio.lawful_of_unset {r : Radio} (chains : ∀ c, (r.chain c).state = .unset ∧ (r.chain c).present = none
    ∧ (r.chain c).target = none ∧ (r.chain c).lockTimer = none ∧ (r.chain c).dwellTimer = none) (hd : r.domain = .A) :
    r.Lawful := by
  refine Radio.lawful_iff.2 ⟨fun c => ?_, fun c => ?_, fun _ => hd⟩
  · obtain ⟨st, present, target, lockTimer, dwell⟩ := chains c
    exact Radio.admits_of_no_channel present target lockTimer dwell (.inr st)
  · obtain ⟨-, present, target, -⟩ := chains c
    simp [ChainRec.channels, present, target]

end Acts

/-! ### Every row -/

theorem exec_keeps_chainLaw {c : Instr} {s t : State} (law : s.ChainLaw) (h : exec c s = .next t) : t.ChainLaw := by
  by_cases hb : Block.radio ∈ blocksOf c
  case neg => unfold State.ChainLaw; rwa [(exec_frame h).radio hb]
  cases c
  case powerOnReset => cases h; exact Radio.lawful_of_unset (fun c => by cases c <;> exact ⟨rfl, rfl, rfl, rfl, rfl⟩) rfl
  case reset =>
    change execReset s = .next t at h
    unfold execReset at h
    split at h
    · cases h; exact Radio.lawful_of_unset (fun c => by cases c <;> exact ⟨rfl, rfl, rfl, rfl, rfl⟩) rfl
    · cases h; exact law
  case epochBoundary =>
    cases h
    rcases s.atInstant_cases s.timebase.untilBoundary State.boundaryWork with ⟨-, h⟩ | ⟨-, h⟩
    · obtain ⟨ns, h'⟩ := State.boundaryWork_frame { s with timebase := s.timebase.advance s.timebase.untilBoundary }
      rw [h, h']
      exact law
    · rw [h]; exact law
  case midEpoch =>
    cases h
    rcases s.atInstant_cases s.timebase.untilMidEpoch State.midEpochWork with ⟨-, h⟩ | ⟨-, h⟩
    · rw [h]; exact State.midEpochWork_lawful (s := { s with timebase := _ }) law
    · rw [h]; exact law
  case automaticMove c =>
    change execAutomaticMove c s = .next t at h
    unfold execAutomaticMove at h
    have taken : (s.setChain c { s.chain c with handed := none }).radio.Lawful :=
      law.setChain_of_subset (law.admits c) fun _ h => h
    split at h
    · cases h; exact law
    dsimp only at h
    split at h
    · cases h; exact taken
    · next passes => cases h; exact State.startMove_lawful taken .advisor passes
  case setDomain =>
    change execSetDomain s = .next t at h
    unfold execSetDomain at h
    split at h
    swap
    · cases h; exact law
    split at h
    · cases h; exact law
    split at h
    · cases h; exact law
    · next unlocked => cases h; exact Radio.Lawful.setDomain law (by simpa using unlocked) _
  case setTuneCode =>
    change execSetTuneCode s = .next t at h
    unfold execSetTuneCode at h
    split at h
    swap
    · cases h; exact law
    split at h
    · cases h; exact law
    next hi lo _ _ ch hch =>
    dsimp only at h
    split at h
    · cases h; exact law
    next free =>
    cases h
    refine Radio.Lawful.setTuneCode law (moveChannelOf_eq_some hch).2.1 fun zero c mem => free ⟨?_, ?_⟩
    · have := congrArg BitVec.toNat zero
      simp only [BitVec.toNat_ofNat] at this
      change _ = 0 at this
      omega
    · rw [Bool.or_eq_true, ChainRec.uses_iff, ChainRec.uses_iff]
      cases c
      · exact .inl mem
      · exact .inr mem
  case setAuto =>
    change execSetAuto s = .next t at h
    unfold execSetAuto at h
    split at h
    swap
    · cases h; exact law
    split at h
    · cases h; exact law.setChain_of_subset (law.admits _) fun _ h => h
    · cases h; exact law
  case move =>
    change execMove s = .next t at h
    unfold execMove at h
    split at h
    swap
    · cases h; exact law
    split at h
    swap
    · cases h; exact law
    split at h
    · cases h; exact law
    · next passes => cases h; exact State.startMove_lawful law .control passes
  case step =>
    change execStep s = .next t at h
    unfold execStep at h
    split at h
    swap
    · cases h; exact law
    split at h
    · cases h; exact law
    split at h
    · cases h; exact law
    split at h
    · cases h; exact law
    dsimp only at h
    split at h
    · cases h; exact law
    split at h
    · cases h; exact law
    · next passes => cases h; exact State.startMove_lawful law .control passes
  case setChannel =>
    change execSetChannel s = .next t at h
    unfold execSetChannel at h
    split at h
    swap
    · cases h; exact law
    split at h
    swap
    · cases h; exact law
    split at h
    · cases h; exact law
    · next passes => cases h; exact State.place_lawful law passes
  case abortMove =>
    change execAbortMove s = .next t at h
    unfold execAbortMove at h
    split at h
    swap
    · cases h; exact law
    split at h
    · cases h; exact law
    split at h
    · next dwell => cases h; exact State.completeMove_lawful law dwell true
    all_goals cases h; exact law
  case lockAsserted c =>
    change execLockAsserted c s = .next t at h
    unfold execLockAsserted at h
    split at h
    · cases h; exact law
    have lawL := State.setLock_lawful law c true
    dsimp only at h
    split at h
    · next retuning => cases h; exact State.lockCompletes_lawful lawL (by simpa [State.setLock] using retuning)
    all_goals cases h; exact lawL
  case lockDeasserted c =>
    change execLockDeasserted c s = .next t at h
    unfold execLockDeasserted at h
    split at h
    swap
    · cases h; exact law
    have lawL := State.setLock_lawful law c false
    dsimp only at h
    split at h
    · cases h; exact State.failMove_lawful lawL c .lockLost
    · cases h; exact State.failMove_lawful lawL c .lockLost
    all_goals cases h; exact lawL
  case lockTimerExpiry c =>
    change execLockTimerExpiry c s = .next t at h
    unfold execLockTimerExpiry at h
    split at h
    swap
    · cases h; exact law
    next e _ _ =>
    cases h
    rcases s.atInstant_cases (s.timebase.remaining e) (fun s => s.failMove c .noLock) with ⟨-, h⟩ | ⟨-, h⟩
    · rw [h]; exact State.failMove_lawful (by exact law) c .noLock
    · rw [h]; exact law
  case dwellTimerExpiry c =>
    change execDwellTimerExpiry c s = .next t at h
    unfold execDwellTimerExpiry at h
    split at h
    swap
    · cases h; exact law
    next e dwell _ =>
    cases h
    rcases s.atInstant_cases (s.timebase.remaining e) (fun s => s.completeMove c false) with ⟨-, h⟩ | ⟨-, h⟩
    · rw [h]; exact State.completeMove_lawful (by exact law) (by exact dwell) false
    · rw [h]; exact law
  all_goals exact absurd hb (by simp [blocksOf])

/-- Settles O56: each row changes one chain within the law of R109 and onto channels that its checks have passed, and
the tune map and the domain only where no channel in use needs the old value. -/
theorem stepKeepsChainLaw : Obligations.StepKeepsChainLaw := fun _ _ law h =>
  step_keeps (fun _ _ _ hu => hu) (fun _ _ _ => exec_keeps_chainLaw) (fun _ _ hu => hu) (fun _ _ hu => hu) law h

end Sys2Proof.Machine
end

section
/-! The ranges of the counts, the parameters and the levels (R7, R108, R133, R174, R202), and the clock with the timed
instants (R141, R147 to R150): what each row makes of a chain, of a record's counts and of the timebase. -/

namespace Sys2Proof.Machine

/-! ### What a row makes of a chain -/

/-- The causes of a change of a chain's state, row by row of R109. -/
def ChainRec.Causes (i : Instr) (c : Chain) (x y : ChainRec) : Prop :=
  (y.state = .retuning ∧ (i = .move ∨ i = .step ∨ i = .automaticMove c))
    ∨ (x.state ≠ .retuning ∧ y.state = .ready ∧ (i = .setChannel ∨ i = .abortMove ∨ i = .dwellTimerExpiry c))
    ∨ (x.state = .retuning ∧ i = .lockAsserted c ∧ (y.state = .dwell ∨ y.state = .ready))
    ∨ (y.state = .fault ∧ (i = .lockTimerExpiry c ∨ i = .lockDeasserted c))

/-- What a row makes of a chain: its counts stay in their ranges, its state changes by its causes, and an automatic
move is handed over at a mid-epoch alone. -/
structure ChainRec.Turn (i : Instr) (c : Chain) (x y : ChainRec) : Prop where
  range : x.RangeLawful → y.RangeLawful
  cause : y.state ≠ x.state → ChainRec.Causes i c x y
  handed : y.handed = x.handed ∨ y.handed = none ∨ i = .midEpoch

/-- What a row makes of the radio: of each chain a turn, and the tune map keeps its length. -/
structure Radio.Turn (i : Instr) (r q : Radio) : Prop where
  chain : ∀ c, ChainRec.Turn i c (r.chain c) (q.chain c)
  tuneMap : q.tuneMap.length = r.tuneMap.length

section Turns
variable {i : Instr} {s t : State} {c : Chain}

theorem ChainRec.Turn.refl (x : ChainRec) : ChainRec.Turn i c x x := ⟨id, fun h => absurd rfl h, .inl rfl⟩

/-- A turn that leaves the state. -/
theorem ChainRec.Turn.of_state {x y : ChainRec} (state : y.state = x.state) (range : x.RangeLawful → y.RangeLawful)
    (handed : y.handed = x.handed ∨ y.handed = none ∨ i = .midEpoch) : ChainRec.Turn i c x y :=
  ⟨range, fun h => absurd state h, handed⟩

theorem Radio.Turn.refl (r : Radio) : Radio.Turn i r r := ⟨fun _ => .refl _, rfl⟩

/-- One chain changes, and the other stays. -/
theorem Radio.Turn.setChain {r : Radio} {x : ChainRec} (h : ChainRec.Turn i c (r.chain c) x) :
    Radio.Turn i r (r.setChain c x) := by
  refine ⟨fun d => ?_, by simp⟩
  by_cases e : d = c
  · subst e; simpa using h
  · rw [otherChain_of_ne e, Radio.chain_setChain_other]
    exact .refl _

/-- A chain that has only taken a line's level or a setting before turns as it would have at once. -/
theorem Radio.setChain_setChain (r : Radio) (c : Chain) (x y : ChainRec) :
    (r.setChain c x).setChain c y = r.setChain c y := by cases c <;> rfl

/-- The streak of an evaluation stays within 15 (R138). -/
theorem State.evaluateChain_streak (s : State) (c : Chain) : (s.evaluateChain c).streak ≤ 15 := by
  unfold State.evaluateChain
  dsimp only
  split
  · split
    · split
      · exact Nat.zero_le _
      · exact Nat.min_le_left _ _
    · split
      · exact Nat.zero_le _
      · exact Nat.zero_le _
  · exact Nat.zero_le _

/-- The act of an evaluation on its chain. -/
theorem State.actOn_turn (s : State) (c : Chain) {v : Evaluation} (hv : v.streak ≤ 15) :
    Radio.Turn .midEpoch s.radio (s.actOn c v).radio := by
  rcases s.actOn_cases c v with ⟨-, e⟩ | ⟨best, -, e⟩
  · rw [e]; exact .setChain (.of_state rfl (fun h => ⟨h.1, hv⟩) (.inr (.inr rfl)))
  · rw [e]; exact .setChain (.of_state rfl (fun h => ⟨h.1, hv⟩) (.inr (.inr rfl)))

theorem Radio.Turn.trans_midEpoch {r q p : Radio} (h : Radio.Turn .midEpoch r q) (h' : Radio.Turn .midEpoch q p) :
    Radio.Turn .midEpoch r p := by
  have still {r q : Radio} (h : Radio.Turn .midEpoch r q) (c : Chain) : (q.chain c).state = (r.chain c).state := by
    by_contra e
    simpa [ChainRec.Causes] using (h.chain c).cause e
  exact ⟨fun c => .of_state ((still h' c).trans (still h c)) ((h'.chain c).range ∘ (h.chain c).range) (.inr (.inr rfl)),
    h'.tuneMap.trans h.tuneMap⟩

theorem State.midEpochWork_turn (s : State) : Radio.Turn .midEpoch s.radio s.midEpochWork.radio := by
  obtain ⟨c, e⟩ := s.midEpochWork_eq
  rw [e]
  exact (State.actOn_turn s.recosted c (State.evaluateChain_streak _ _)).trans_midEpoch
    (State.actOn_turn _ _ (State.evaluateChain_streak _ _))

theorem State.startMove_turn (s : State) (c : Chain) (ch : Nat) (origin : MoveOrigin)
    (cause : i = .move ∨ i = .step ∨ i = .automaticMove c) : Radio.Turn i s.radio (s.startMove c ch origin).radio :=
  .setChain ⟨id, fun _ => .inl ⟨rfl, cause⟩, .inl rfl⟩

theorem State.failMove_turn (s : State) (c : Chain) (cause : FailCause)
    (row : i = .lockTimerExpiry c ∨ i = .lockDeasserted c) : Radio.Turn i s.radio (s.failMove c cause).radio := by
  rw [State.failMove, State.raise_radio]
  exact .setChain ⟨id, fun _ => .inr (.inr (.inr ⟨rfl, row⟩)), .inl rfl⟩

theorem State.completeMove_turn (s : State) (c : Chain) (cut : Bool) (dwell : (s.chain c).state = .dwell)
    (row : i = .setChannel ∨ i = .abortMove ∨ i = .dwellTimerExpiry c) :
    Radio.Turn i s.radio (s.completeMove c cut).radio := by
  rw [State.completeMove, State.raise_radio]
  refine .setChain ⟨fun h => ⟨Nat.zero_le _, h.2⟩, fun _ => .inr (.inl ⟨?_, rfl, row⟩), .inl rfl⟩
  change (s.radio.chain c).state = .dwell at dwell
  simp [dwell]

/-- What every row but the resets makes of the radio. -/
theorem exec_radio_turn (hp : i ≠ .powerOnReset) (hr : i ≠ .reset) (h : exec i s = .next t) :
    Radio.Turn i s.radio t.radio := by
  by_cases hb : Block.radio ∈ blocksOf i
  case neg => rw [(exec_frame h).radio hb]; exact .refl _
  cases i
  case powerOnReset => exact absurd rfl hp
  case reset => exact absurd rfl hr
  case epochBoundary =>
    cases h
    rcases s.atInstant_cases s.timebase.untilBoundary State.boundaryWork with ⟨-, h⟩ | ⟨-, h⟩
    · obtain ⟨ns, h'⟩ := State.boundaryWork_frame { s with timebase := s.timebase.advance s.timebase.untilBoundary }
      rw [h, h']
      refine ⟨fun c => .of_state ?_ (fun h => ?_) (.inl ?_), rfl⟩
      · cases c <;> rfl
      · cases c <;> exact ⟨Nat.min_le_left _ _, h.2⟩
      · cases c <;> rfl
    · rw [h]; exact .refl _
  case midEpoch =>
    cases h
    rcases s.atInstant_cases s.timebase.untilMidEpoch State.midEpochWork with ⟨-, h⟩ | ⟨-, h⟩
    · rw [h]; exact State.midEpochWork_turn { s with timebase := s.timebase.advance s.timebase.untilMidEpoch }
    · rw [h]; exact .refl _
  case automaticMove c =>
    change execAutomaticMove c s = .next t at h
    unfold execAutomaticMove at h
    split at h
    · cases h; exact .refl _
    dsimp only at h
    split at h
    · cases h; exact .setChain (.of_state rfl id (.inr (.inl rfl)))
    · cases h
      rw [State.startMove, State.radio_setChain, State.radio_setChain, Radio.setChain_setChain]
      refine .setChain ⟨?_, fun _ => .inl ⟨rfl, .inr (.inr rfl)⟩, .inr (.inl ?_)⟩
      · rw [State.chain_setChain]; exact id
      · rw [State.chain_setChain]
  case setDomain =>
    change execSetDomain s = .next t at h
    unfold execSetDomain at h
    split at h
    swap
    · cases h; exact .refl _
    split at h
    · cases h; exact .refl _
    split at h
    · cases h; exact .refl _
    · cases h; exact ⟨fun c => by cases c <;> exact .refl _, rfl⟩
  case setTuneCode =>
    change execSetTuneCode s = .next t at h
    unfold execSetTuneCode at h
    split at h
    swap
    · cases h; exact .refl _
    split at h
    · cases h; exact .refl _
    dsimp only at h
    split at h
    · cases h; exact .refl _
    · cases h; exact ⟨fun c => by cases c <;> exact .refl _, List.length_set ..⟩
  case setAuto =>
    change execSetAuto s = .next t at h
    unfold execSetAuto at h
    split at h
    swap
    · cases h; exact .refl _
    split at h
    · cases h; exact .setChain (.of_state rfl id (.inl rfl))
    · cases h; exact .refl _
  case move =>
    change execMove s = .next t at h
    unfold execMove at h
    split at h
    swap
    · cases h; exact .refl _
    split at h
    swap
    · cases h; exact .refl _
    split at h
    · cases h; exact .refl _
    · cases h; exact State.startMove_turn s _ _ _ (.inl rfl)
  case step =>
    change execStep s = .next t at h
    unfold execStep at h
    split at h
    swap
    · cases h; exact .refl _
    split at h
    · cases h; exact .refl _
    split at h
    · cases h; exact .refl _
    split at h
    · cases h; exact .refl _
    dsimp only at h
    split at h
    · cases h; exact .refl _
    split at h
    · cases h; exact .refl _
    · cases h; exact State.startMove_turn s _ _ _ (.inr (.inl rfl))
  case setChannel =>
    change execSetChannel s = .next t at h
    unfold execSetChannel at h
    split at h
    swap
    · cases h; exact .refl _
    split at h
    swap
    · cases h; exact .refl _
    split at h
    · cases h; exact .refl _
    next passes =>
    cases h
    obtain ⟨takes, -⟩ := Radio.check_eq_none passes
    exact .setChain ⟨fun h => ⟨Nat.zero_le _, h.2⟩,
      fun _ => .inr (.inl ⟨fun e => by simp [e, ChainState.takesRequest] at takes, rfl, .inl rfl⟩), .inl rfl⟩
  case abortMove =>
    change execAbortMove s = .next t at h
    unfold execAbortMove at h
    split at h
    swap
    · cases h; exact .refl _
    split at h
    · cases h; exact .refl _
    split at h
    · next dwell => cases h; exact State.completeMove_turn s _ true dwell (.inr (.inl rfl))
    all_goals cases h; exact .refl _
  case lockAsserted c =>
    change execLockAsserted c s = .next t at h
    unfold execLockAsserted at h
    split at h
    · cases h; exact .refl _
    dsimp only at h
    split at h
    case h_1 retuning =>
      cases h
      change (s.radio.chain c).state = .retuning at retuning
      unfold State.lockCompletes
      dsimp only
      split
      · rw [State.completeMove, State.raise_radio, State.radio_setChain, State.radio_setChain, Radio.setChain_setChain,
          State.setLock, State.radio_setChain, Radio.setChain_setChain]
        refine .setChain ⟨fun h => ?_, fun _ => .inr (.inr (.inl ⟨retuning, rfl, .inr rfl⟩)), .inl ?_⟩
        · simp only [State.chain_setChain]; exact ⟨Nat.zero_le _, h.2⟩
        · simp only [State.chain_setChain]; rfl
      · rw [State.radio_setChain, State.setLock, State.radio_setChain, Radio.setChain_setChain]
        refine .setChain ⟨?_, fun _ => .inr (.inr (.inl ⟨retuning, rfl, .inl rfl⟩)), .inl ?_⟩
        · simp only [State.chain_setChain]; exact id
        · simp only [State.chain_setChain]; rfl
    all_goals cases h; exact .setChain (.of_state rfl id (.inl rfl))
  case lockDeasserted c =>
    change execLockDeasserted c s = .next t at h
    unfold execLockDeasserted at h
    split at h
    swap
    · cases h; exact .refl _
    have fails : Radio.Turn (.lockDeasserted c) s.radio ((s.setLock c false).failMove c .lockLost).radio := by
      rw [State.failMove, State.raise_radio, State.radio_setChain, State.setLock, State.radio_setChain,
        Radio.setChain_setChain]
      refine .setChain ⟨?_, fun _ => .inr (.inr (.inr ⟨rfl, .inr rfl⟩)), .inl ?_⟩
      · simp only [State.chain_setChain]; exact id
      · simp only [State.chain_setChain]; rfl
    dsimp only at h
    split at h
    · cases h; exact fails
    · cases h; exact fails
    all_goals cases h; exact .setChain (.of_state rfl id (.inl rfl))
  case lockTimerExpiry c =>
    change execLockTimerExpiry c s = .next t at h
    unfold execLockTimerExpiry at h
    split at h
    swap
    · cases h; exact .refl _
    next e _ _ =>
    cases h
    rcases s.atInstant_cases (s.timebase.remaining e) (fun s => s.failMove c .noLock) with ⟨-, h⟩ | ⟨-, h⟩
    · rw [h]; exact State.failMove_turn { s with timebase := s.timebase.advance (s.timebase.remaining e) } c .noLock (.inl rfl)
    · rw [h]; exact .refl _
  case dwellTimerExpiry c =>
    change execDwellTimerExpiry c s = .next t at h
    unfold execDwellTimerExpiry at h
    split at h
    swap
    · cases h; exact .refl _
    next e dwell _ =>
    cases h
    rcases s.atInstant_cases (s.timebase.remaining e) (fun s => s.completeMove c false) with ⟨-, h⟩ | ⟨-, h⟩
    · rw [h]; exact State.completeMove_turn { s with timebase := s.timebase.advance (s.timebase.remaining e) } c false dwell
        (.inr (.inr rfl))
    · rw [h]; exact .refl _
  all_goals exact absurd hb (by simp [blocksOf])

end Turns

/-! ### The counts of a record (R7) -/

section Counts
variable {s : State} {moves : Bool} {r r' : Record}

theorem satInc255_le (n : Nat) : satInc255 n ≤ 255 := Nat.min_le_left _ _

/-- Silence counts within the range, and the empty streak of an OVEN alone (R18). -/
theorem Record.turned_rangeLawful (law : r.RangeLawful) (blind : Bool) : (r.turned blind).RangeLawful := by
  obtain ⟨hits, idle, streak, age, only⟩ := law
  have counted : (r.countSilence blind).RangeLawful := by
    unfold Record.countSilence
    split
    · exact ⟨hits, idle, streak, age, only⟩
    split
    · exact ⟨hits, Nat.zero_le _, Nat.zero_le _, age, fun _ => rfl⟩
    · refine ⟨hits, satInc255_le _, ?_, age, fun hk => ?_⟩
      · dsimp only
        split
        · exact satInc255_le _
        · exact streak
      · change r.kind ≠ .oven at hk
        dsimp only
        rw [if_neg hk]
        exact only hk
  unfold Record.turned Record.coast
  split
  · exact counted
  · exact counted

theorem Record.RangeLawful.of_counts (law : r.RangeLawful) (hh : r'.hits ≤ 255) (hi : r'.idle = r.idle)
    (he : r'.emptyStreak = r.emptyStreak) (ha : r'.age ≤ 255) (hk : r'.kind = r.kind) : r'.RangeLawful := by
  obtain ⟨hits, idle, streak, age, only⟩ := law
  exact ⟨hh, hi ▸ idle, he ▸ streak, ha, fun h => he.trans (only (hk ▸ h))⟩

theorem Record.Works.rangeLawful (w : Record.Works s moves r r') (law : r.RangeLawful) : r'.RangeLawful := by
  have kind := w.kind_eq
  obtain ⟨hits, -, -, age, -⟩ := id law
  cases w with
  | holds | retires | pins | unpins => exact law
  | confirms => exact ⟨law.1, Nat.zero_le _, Nat.zero_le _, Nat.zero_le _, fun _ => rfl⟩
  | tracks | findsPhase | findsPeriod | takesAirtime | widens =>
    exact law.of_counts (satInc255_le _) rfl rfl age kind
  | reanchors => exact law.of_counts hits rfl rfl age kind
  | ages p blind now16 live aged =>
    obtain ⟨age, rfl, hage⟩ := Record.aged_stays aged
    have turned := Record.turned_rangeLawful law blind
    obtain ⟨_, _, _, e, -⟩ := r.turned_frame blind
    refine turned.of_counts turned.1 rfl rfl ?_ (kind.trans (by rw [e]; rfl))
    rcases hage with rfl | rfl
    · exact turned.2.2.2.1
    · exact satInc255_le _
  | leaves p blind order now16 held aged =>
    obtain ⟨age, rfl, hage⟩ := Record.aged_leaves aged
    have turned := Record.turned_rangeLawful law blind
    obtain ⟨_, _, _, e, -⟩ := r.turned_frame blind
    refine turned.of_counts turned.1 rfl rfl ?_ (kind.trans (by rw [e]; rfl))
    rcases hage with rfl | rfl
    · exact turned.2.2.2.1
    · exact satInc255_le _
  | commits cursor live passes =>
    refine law.of_counts ?_ ?_ ?_ ?_ kind
    · rw [(s.meetsRebase_keeps _ _ _).1, (Record.committed_frame passes).1]; exact hits
    · rw [(s.meetsRebase_keeps _ _ _).1, (Record.committed_frame passes).1]
    · rw [(s.meetsRebase_keeps _ _ _).1, (Record.committed_frame passes).1]
    · rw [(s.meetsRebase_keeps _ _ _).1, (Record.committed_frame passes).1]; exact age

theorem Record.Born.rangeLawful (b : Record.Born s r) : r.RangeLawful := by
  cases b with
  | swept | preamble | steady => simp [Record.RangeLawful, learnedRecord]
  | pinned seq valid =>
    obtain ⟨span, part, rfl⟩ := PinRequest.record_frame valid
    simp [Record.RangeLawful, pinnedRecord]

end Counts

/-! ### The costs, the parameters and the levels -/

section Ranges
variable {s t : State}

theorem State.costOf_rangeLawful (s : State) (ch : Nat) : (s.costOf ch).RangeLawful := by
  unfold State.costOf
  split
  · exact ⟨Nat.min_le_left _ _, Nat.min_le_left _ _, Nat.min_le_left _ _⟩
  · simp

/-- The rows of the cost table are 14 and in their ranges (R133). -/
def Advisor.Lawful (a : Advisor) : Prop := a.costs.length = 14 ∧ ∀ x ∈ a.costs, x.RangeLawful

theorem Advisor.reset_lawful : Advisor.reset.Lawful := by
  refine ⟨rfl, fun x hx => ?_⟩
  rw [List.eq_of_mem_replicate hx]
  simp

theorem State.midEpochWork_advisor (s : State) : s.midEpochWork.advisor = s.costed.advisor := by
  obtain ⟨c, e⟩ := s.midEpochWork_eq
  obtain ⟨_, _, h1⟩ := s.recosted.actOn_writes c (s.recosted.evaluateChain c)
  obtain ⟨_, _, h2⟩ := (s.recosted.actOn c (s.recosted.evaluateChain c)).actOn_writes (otherChain c)
    (s.recosted.evaluateChain (otherChain c))
  rw [e, h2, h1]
  rfl

theorem exec_keeps_costs {c : Instr} (h : exec c s = .next t) (law : s.advisor.Lawful) : t.advisor.Lawful := by
  by_cases hb : Block.advisor ∈ blocksOf c
  case neg => rwa [(exec_frame h).advisor hb]
  cases c
  case powerOnReset => cases h; exact Advisor.reset_lawful
  case reset =>
    change execReset s = .next t at h
    unfold execReset at h
    split at h
    · cases h; exact Advisor.reset_lawful
    · cases h; exact law
  case midEpoch =>
    cases h
    rcases s.atInstant_cases s.timebase.untilMidEpoch State.midEpochWork with ⟨-, h⟩ | ⟨-, h⟩
    · rw [h, State.midEpochWork_advisor]
      refine ⟨by simp [State.costed, allChannels], fun x hx => ?_⟩
      obtain ⟨ch, -, rfl⟩ := List.mem_map.1 hx
      exact State.costOf_rangeLawful _ _
    · rwa [h]
  all_goals exact absurd hb (by simp [blocksOf])

/-- The parameters are in their ranges where each value is in the range of its place (R174). -/
theorem Params.rangeLawful_iff {p : Params} :
    p.RangeLawful ↔ List.Forall₂ (fun v (range : Nat × Nat) => range.1 ≤ v ∧ v ≤ range.2) p.values paramRanges := by
  simp [Params.values, paramRanges, and_assoc]

theorem forall₂_set {α β : Type} {R : α → β → Prop} {l : List α} {m : List β} (h : List.Forall₂ R l m) {n : Nat} {x : α}
    {y : β} (hy : m[n]? = some y) (hx : R x y) : List.Forall₂ R (l.set n x) m := by
  induction h generalizing n with
  | nil => cases hy
  | cons hd tl ih =>
    cases n with
    | zero => cases hy; exact .cons hx tl
    | succ n => exact .cons hd (ih hy)

/-- A value clamped to its parameter's range keeps the parameters in their ranges (R175). -/
theorem Params.write_rangeLawful {p : Params} {id : Byte} {range : Nat × Nat} (law : p.RangeLawful)
    (h : paramRange id = some range) (v : Nat) : (p.write id (clampNat range.1 range.2 v)).RangeLawful := by
  have lo : 1 ≤ id.toNat := by
    by_contra hz
    rw [paramRange_eq_none (.inl (by omega))] at h
    cases h
  rw [paramRange_eq_getElem? lo] at h
  have ordered : range.1 ≤ range.2 := by
    have all : ∀ x ∈ paramRanges, x.1 ≤ x.2 := by decide
    exact all _ (List.mem_of_getElem? h)
  rw [Params.rangeLawful_iff, Params.values_write lo]
  exact forall₂_set (Params.rangeLawful_iff.1 law) h ⟨Nat.le_max_left _ _, max_le ordered (Nat.min_le_left _ _)⟩

theorem Params.reset_rangeLawful : Params.reset.RangeLawful := by decide

theorem exec_keeps_params {c : Instr} (h : exec c s = .next t) (law : s.params.RangeLawful) : t.params.RangeLawful := by
  by_cases hb : Block.params ∈ blocksOf c
  case neg => rwa [(exec_frame h).params hb]
  cases c
  case powerOnReset => cases h; exact Params.reset_rangeLawful
  case setParameter =>
    change execSetParameter s = .next t at h
    unfold execSetParameter at h
    split at h
    swap
    · cases h; exact law
    split at h
    · cases h; exact law
    · next range =>
      cases h
      simp only [State.answerOk, State.params_finish, State.params_setParam]
      exact Params.write_rangeLawful law range _
  all_goals exact absurd hb (by simp [blocksOf])

theorem NoticeKind.heldLevel_le (k : NoticeKind) (v : Nat) : k.heldLevel v ≤ 7 := by
  cases k <;> simp [NoticeKind.heldLevel, clampNat]

/-- A set level is read back, and no other changes. -/
theorem Levels.level_setLevel_le {l : Levels} {k : NoticeKind} {v : Nat} (law : ∀ k, l.level k ≤ 7) (hv : v ≤ 7)
    (k' : NoticeKind) : (l.setLevel k v).level k' ≤ 7 := by
  have := law k'
  cases k <;> cases k' <;> simpa only [Levels.setLevel, Levels.level]

theorem exec_keeps_levels {c : Instr} (h : exec c s = .next t) (law : ∀ k, s.notices.levels.level k ≤ 7) (k : NoticeKind) :
    t.notices.levels.level k ≤ 7 := by
  by_cases hq : setsNotices c = false
  · rw [(exec_raised hq h).levels]; exact law k
  cases c
  case powerOnReset =>
    cases h
    show Levels.reset.level k ≤ 7
    cases k <;> decide
  case reset =>
    change execReset s = .next t at h
    unfold execReset at h
    split at h
    · cases h; exact law k
    · cases h; exact law k
  case setParameter =>
    change execSetParameter s = .next t at h
    unfold execSetParameter at h
    split at h
    swap
    · cases h; exact law k
    split at h
    · cases h; exact law k
    · cases h
      simp only [State.answerOk, State.notices_finish]
      rw [State.setParam_frame]
      exact law k
  case setNoticeLevel =>
    change execSetNoticeLevel s = .next t at h
    unfold execSetNoticeLevel at h
    split at h
    swap
    · cases h; exact law k
    split at h
    · cases h; exact law k
    · cases h; exact Levels.level_setLevel_le law (NoticeKind.heldLevel_le _ _) k
  case fetchNotice =>
    change execFetchNotice s = .next t at h
    unfold execFetchNotice at h
    split at h
    swap
    · cases h; exact law k
    split at h
    · cases h; exact law k
    · cases h; exact law k
  all_goals exact absurd rfl hq

end Ranges

/-! ### The passing of time (R146, R147) -/

/-- The rows that may carry the counter to their instant. -/
def isTimed : Instr → Bool
  | .epochBoundary | .midEpoch | .qualificationExpiry | .lockTimerExpiry _ | .dwellTimerExpiry _ => true
  | _ => false

/-- The microseconds that a row would let pass: those to its instant. -/
def State.rowSpan (s : State) : Instr → Nat
  | .epochBoundary => s.timebase.untilBoundary
  | .midEpoch => s.timebase.untilMidEpoch
  | .lockTimerExpiry c => ((s.chain c).lockTimer.map s.timebase.remaining).getD 0
  | .dwellTimerExpiry c => ((s.chain c).dwellTimer.map s.timebase.remaining).getD 0
  | .qualificationExpiry => (s.timebase.qual.expiry.map s.timebase.remaining).getD 0
  | _ => 0

/-- The same counter and epoch timer. -/
def Timebase.SameTime (a b : Timebase) : Prop := b.time = a.time ∧ b.epochTimer = a.epochTimer

section Time
variable {i : Instr} {s t : State}

theorem State.midEpochWork_timebase (s : State) : s.midEpochWork.timebase = { s.timebase with midDue := false } := by
  obtain ⟨c, e⟩ := s.midEpochWork_eq
  obtain ⟨_, _, h1⟩ := s.recosted.actOn_writes c (s.recosted.evaluateChain c)
  obtain ⟨_, _, h2⟩ := (s.recosted.actOn c (s.recosted.evaluateChain c)).actOn_writes (otherChain c)
    (s.recosted.evaluateChain (otherChain c))
  rw [e, h2, h1]
  rfl

theorem State.boundaryWork_timebase (s : State) : s.boundaryWork.timebase = { s.timebase with boundaryDue := false } := by
  obtain ⟨_, e⟩ := s.boundaryWork_frame
  rw [e]

/-- What a qualification makes of the timebase (R150, R151). -/
def Timebase.qualified (b : Timebase) : Timebase :=
  { b with qual := .qualified, clock := if b.clock = .internalStart then .reference else b.clock }

theorem State.qualify_timebase (s : State) : s.qualify.timebase = s.timebase.qualified := by
  unfold State.qualify
  dsimp only
  split
  · next h => simp [Timebase.qualified, h]
  · next h => rw [State.raise_timebase]; simp [Timebase.qualified, h]
  · next h => simp [Timebase.qualified, h]

/-- What a timed row makes of the timebase: the work's part of it, at the row's instant, or nothing. -/
theorem State.atInstant_timebase {n : Nat} {work : State → State} {f : Timebase → Timebase}
    (hw : ∀ u : State, (work u).timebase = f u.timebase) :
    (s.mayPass n = true ∧ (s.atInstant n work).timebase = f (s.timebase.advance n))
      ∨ (s.mayPass n = false ∧ s.atInstant n work = s) := by
  rcases s.atInstant_cases n work with ⟨h, e⟩ | ⟨h, e⟩
  · exact .inl ⟨h, by rw [e, hw]⟩
  · exact .inr ⟨h, e⟩

/-- The timebase after a timed row: at its instant with the work's part done, or as it stood. -/
theorem exec_timed (ht : isTimed i = true) (h : exec i s = .next t) :
    t = s ∨ (s.mayPass (s.rowSpan i) = true ∧ ∃ b : Timebase, t.timebase = b
      ∧ Timebase.SameTime (s.timebase.advance (s.rowSpan i)) b) := by
  cases i
  case epochBoundary =>
    cases h
    rcases s.atInstant_timebase (f := fun b => { b with boundaryDue := false }) State.boundaryWork_timebase with ⟨pass, e⟩ | ⟨-, e⟩
    · exact .inr ⟨pass, _, e, rfl, rfl⟩
    · exact .inl e
  case midEpoch =>
    cases h
    rcases s.atInstant_timebase (f := fun b => { b with midDue := false }) State.midEpochWork_timebase with ⟨pass, e⟩ | ⟨-, e⟩
    · exact .inr ⟨pass, _, e, rfl, rfl⟩
    · exact .inl e
  case lockTimerExpiry c =>
    change execLockTimerExpiry c s = .next t at h
    unfold execLockTimerExpiry at h
    split at h
    · next e _ he =>
      cases h
      have span : s.rowSpan (.lockTimerExpiry c) = s.timebase.remaining e := by simp [State.rowSpan, he]
      rcases s.atInstant_timebase (n := s.timebase.remaining e) (work := fun s => s.failMove c .noLock) (f := id)
        (fun u => by rw [State.failMove, State.raise_timebase]; rfl) with ⟨pass, e'⟩ | ⟨-, e'⟩
      · exact .inr ⟨span ▸ pass, _, e', by rw [span]; exact ⟨rfl, rfl⟩⟩
      · exact .inl e'
    · cases h; exact .inl rfl
  case dwellTimerExpiry c =>
    change execDwellTimerExpiry c s = .next t at h
    unfold execDwellTimerExpiry at h
    split at h
    · next e _ he =>
      cases h
      have span : s.rowSpan (.dwellTimerExpiry c) = s.timebase.remaining e := by simp [State.rowSpan, he]
      rcases s.atInstant_timebase (n := s.timebase.remaining e) (work := fun s => s.completeMove c false) (f := id)
        (fun u => by rw [State.completeMove, State.raise_timebase]; rfl) with ⟨pass, e'⟩ | ⟨-, e'⟩
      · exact .inr ⟨span ▸ pass, _, e', by rw [span]; exact ⟨rfl, rfl⟩⟩
      · exact .inl e'
    · cases h; exact .inl rfl
  case qualificationExpiry =>
    change execQualificationExpiry s = .next t at h
    unfold execQualificationExpiry at h
    split at h
    · next e he =>
      cases h
      have span : s.rowSpan .qualificationExpiry = s.timebase.remaining e := by
        simp [State.rowSpan, he, Qualification.expiry]
      rcases s.atInstant_timebase (n := s.timebase.remaining e) (f := Timebase.qualified) State.qualify_timebase with ⟨pass, e'⟩ | ⟨-, e'⟩
      · exact .inr ⟨span ▸ pass, _, e', by rw [span]; exact ⟨rfl, rfl⟩⟩
      · exact .inl e'
    all_goals cases h; exact .inl rfl
  all_goals cases ht

/-- No time passes in a row that is not timed (R146). -/
theorem exec_untimed (hp : i ≠ .powerOnReset) (ht : isTimed i = false) (h : exec i s = .next t) :
    Timebase.SameTime s.timebase t.timebase := by
  by_cases hb : Block.timebase ∈ blocksOf i
  case neg => rw [(exec_frame h).timebase hb]; exact ⟨rfl, rfl⟩
  cases i
  case powerOnReset => exact absurd rfl hp
  case epochBoundary | midEpoch | lockTimerExpiry | dwellTimerExpiry | qualificationExpiry => cases ht
  case restoreClock =>
    change execRestoreClock s = .next t at h
    unfold execRestoreClock at h
    split at h
    swap
    · cases h; exact ⟨rfl, rfl⟩
    split at h <;> cases h <;> exact ⟨rfl, rfl⟩
  case referenceLoss =>
    change execReferenceLoss s = .next t at h
    unfold execReferenceLoss at h
    split at h
    swap
    · cases h; exact ⟨rfl, rfl⟩
    dsimp only at h
    split at h
    · cases h; rw [State.raise_timebase]; exact ⟨rfl, rfl⟩
    all_goals cases h; exact ⟨rfl, rfl⟩
  case referenceReturn =>
    change execReferenceReturn s = .next t at h
    unfold execReferenceReturn at h
    split at h <;> cases h <;> exact ⟨rfl, rfl⟩
  all_goals exact absurd hb (by simp [blocksOf])

/-- Nothing lies before the present instant. -/
theorem State.reaches_zero (h : s.timebase.epochTimer < 100000) : s.Reaches 0 :=
  ⟨fun _ => rfl, by omega, fun h => by omega, fun _ _ _ _ => by omega, fun _ _ _ _ => by omega, fun _ _ => by omega⟩

/-- The time that passes in a row: the microseconds to its instant, or none (R146, R147). -/
theorem exec_time (hp : i ≠ .powerOnReset) (he : s.timebase.epochTimer < 100000) (h : exec i s = .next t) :
    ∃ n, s.Reaches n ∧ t.timebase.time = s.timebase.time + BitVec.ofNat 32 n
      ∧ t.timebase.epochTimer = (s.timebase.epochTimer + n) % 100000 ∧ (n = 0 ∨ (isTimed i = true ∧ n = s.rowSpan i)) := by
  have none (same : Timebase.SameTime s.timebase t.timebase) : ∃ n, s.Reaches n
      ∧ t.timebase.time = s.timebase.time + BitVec.ofNat 32 n
      ∧ t.timebase.epochTimer = (s.timebase.epochTimer + n) % 100000 ∧ (n = 0 ∨ (isTimed i = true ∧ n = s.rowSpan i)) :=
    ⟨0, State.reaches_zero he, by simpa using same.1, by rw [same.2, Nat.add_zero, Nat.mod_eq_of_lt he], .inl rfl⟩
  cases ht : isTimed i with
  | false => simpa [ht] using none (exec_untimed hp ht h)
  | true =>
    rcases exec_timed ht h with rfl | ⟨pass, b, rfl, time, epoch⟩
    · simpa [ht] using none ⟨rfl, rfl⟩
    · exact ⟨_, (State.mayPass_iff he).1 pass, time, epoch, .inr ⟨rfl, rfl⟩⟩

/-! ### The clock (R148 to R150, R154) -/

/-- What a row makes of the clock state, by its causes. -/
theorem exec_clock (hp : i ≠ .powerOnReset) (h : exec i s = .next t) : t.timebase.clock = s.timebase.clock
    ∨ (i = .qualificationExpiry ∧ s.timebase.clock = .internalStart ∧ t.timebase.clock = .reference)
    ∨ (i = .referenceLoss ∧ s.timebase.clock = .reference ∧ t.timebase.clock = .fallback)
    ∨ (i = .restoreClock ∧ s.timebase.clock = .fallback ∧ t.timebase.clock = .reference) := by
  by_cases hb : Block.timebase ∈ blocksOf i
  case neg => exact .inl (by rw [(exec_frame h).timebase hb])
  cases i
  case powerOnReset => exact absurd rfl hp
  case epochBoundary =>
    cases h
    rcases s.atInstant_timebase (f := fun b => { b with boundaryDue := false }) State.boundaryWork_timebase with ⟨-, e⟩ | ⟨-, e⟩
    · exact .inl (by rw [e]; rfl)
    · exact .inl (by rw [e])
  case midEpoch =>
    cases h
    rcases s.atInstant_timebase (f := fun b => { b with midDue := false }) State.midEpochWork_timebase with ⟨-, e⟩ | ⟨-, e⟩
    · exact .inl (by rw [e]; rfl)
    · exact .inl (by rw [e])
  case lockTimerExpiry c =>
    change execLockTimerExpiry c s = .next t at h
    unfold execLockTimerExpiry at h
    split at h
    · next e _ _ =>
      cases h
      rcases s.atInstant_timebase (n := s.timebase.remaining e) (work := fun s => s.failMove c .noLock) (f := id)
        (fun u => by rw [State.failMove, State.raise_timebase]; rfl) with ⟨-, e'⟩ | ⟨-, e'⟩
      · exact .inl (by rw [e']; rfl)
      · exact .inl (by rw [e'])
    · cases h; exact .inl rfl
  case dwellTimerExpiry c =>
    change execDwellTimerExpiry c s = .next t at h
    unfold execDwellTimerExpiry at h
    split at h
    · next e _ _ =>
      cases h
      rcases s.atInstant_timebase (n := s.timebase.remaining e) (work := fun s => s.completeMove c false) (f := id)
        (fun u => by rw [State.completeMove, State.raise_timebase]; rfl) with ⟨-, e'⟩ | ⟨-, e'⟩
      · exact .inl (by rw [e']; rfl)
      · exact .inl (by rw [e'])
    · cases h; exact .inl rfl
  case qualificationExpiry =>
    change execQualificationExpiry s = .next t at h
    unfold execQualificationExpiry at h
    split at h
    · next e _ =>
      cases h
      rcases s.atInstant_timebase (n := s.timebase.remaining e) (f := Timebase.qualified) State.qualify_timebase with ⟨-, e'⟩ | ⟨-, e'⟩
      · rw [e']
        by_cases hc : s.timebase.clock = .internalStart
        · exact .inr (.inl ⟨rfl, hc, by simp [Timebase.qualified, hc]⟩)
        · exact .inl (by simp [Timebase.qualified, hc])
      · exact .inl (by rw [e'])
    all_goals cases h; exact .inl rfl
  case restoreClock =>
    change execRestoreClock s = .next t at h
    unfold execRestoreClock at h
    split at h
    swap
    · cases h; exact .inl rfl
    split at h
    · next hc _ => cases h; exact .inr (.inr (.inr ⟨rfl, hc, rfl⟩))
    all_goals cases h; exact .inl rfl
  case referenceLoss =>
    change execReferenceLoss s = .next t at h
    unfold execReferenceLoss at h
    split at h
    swap
    · cases h; exact .inl rfl
    dsimp only at h
    split at h
    · next hc => cases h; exact .inr (.inr (.inl ⟨rfl, hc, by rw [State.raise_timebase]⟩))
    all_goals cases h; exact .inl rfl
  case referenceReturn =>
    change execReferenceReturn s = .next t at h
    unfold execReferenceReturn at h
    split at h <;> cases h <;> exact .inl rfl
  all_goals exact absurd hb (by simp [blocksOf])

end Time

end Sys2Proof.Machine
end

section
/-! The laws of the ranges and of the clock over every step (R7, R108, R141, R147 to R150, R174, R202), and the causes by
which a chain, the clock and the time change (R109, R146 to R148, R167). -/

namespace Sys2Proof.Machine

/-! ### The ranges -/

section Range
variable {s t : State}

theorem Levels.mem_allNoticeKinds (k : NoticeKind) : k ∈ allNoticeKinds := by cases k <;> simp [allNoticeKinds]

/-- The chains' counts and the length of the tune map, over every row. -/
theorem exec_keeps_radio {c : Instr} (h : exec c s = .next t) (chains : ∀ d, (s.radio.chain d).RangeLawful)
    (map : s.radio.tuneMap.length = 14) : (∀ d, (t.radio.chain d).RangeLawful) ∧ t.radio.tuneMap.length = 14 := by
  by_cases hp : c = .powerOnReset
  · subst hp
    cases h
    exact ⟨fun d => by cases d <;> exact ⟨Nat.le_refl _, Nat.zero_le _⟩, rfl⟩
  by_cases hr : c = .reset
  · subst hr
    change execReset s = .next t at h
    unfold execReset at h
    split at h
    · cases h
      exact ⟨fun d => by cases d <;> exact ⟨Nat.le_refl _, Nat.zero_le _⟩, map⟩
    · cases h
      exact ⟨chains, map⟩
  · have turn := exec_radio_turn hp hr h
    exact ⟨fun d => (turn.chain d).range (chains d), turn.tuneMap.trans map⟩

theorem exec_keeps_epochTimer {c : Instr} (h : exec c s = .next t) (law : s.timebase.epochTimer < 100000) :
    t.timebase.epochTimer < 100000 := by
  by_cases hp : c = .powerOnReset
  · subst hp
    cases h
    exact Nat.zero_lt_succ _
  · obtain ⟨n, -, -, e, -⟩ := exec_time hp law h
    rw [e]
    exact Nat.mod_lt _ (by decide)

theorem exec_keeps_rangeLaw {c : Instr} (law : s.RangeLaw) (h : exec c s = .next t) : t.RangeLaw := by
  obtain ⟨records, chainA, chainB, costs, rows, map, epoch, params, levels⟩ := law
  obtain ⟨chains, map'⟩ := exec_keeps_radio h (fun d => by cases d <;> assumption) map
  obtain ⟨costs', rows'⟩ := exec_keeps_costs h ⟨costs, rows⟩
  exact ⟨exec_keeps_records (P := Record.RangeLawful) h (fun _ _ _ hr w => w.rangeLawful hr) (fun _ b => b.rangeLawful)
      records, chains .A, chains .B, costs', rows', map', exec_keeps_epochTimer h epoch, exec_keeps_params h params,
    fun k _ => exec_keeps_levels h (fun k => levels k (Levels.mem_allNoticeKinds k)) k⟩

end Range

/-! ### The clock and the timed instants -/

section Clock
variable {s t : State}

/-- An automatic move that waits at the chain was handed over at this mid-epoch (R141). -/
def Timebase.Allows (b : Timebase) (x : ChainRec) : Prop :=
  x.handed.isSome = true → b.epochTimer = 50000 ∧ b.midDue = false

theorem State.clockLaw_iff : s.ClockLaw ↔ s.timebase.Lawful ∧ ∀ c, s.timebase.Allows (s.chain c) := by
  refine and_congr_right fun _ => ⟨fun h c => ?_, fun h x hx => ?_⟩
  · cases c
    · exact h _ (by simp [State.chain, Radio.chain])
    · exact h _ (by simp [State.chain, Radio.chain])
  · rcases List.mem_cons.1 hx with rfl | hx
    · exact h .A
    · rw [List.mem_singleton.1 hx]; exact h .B

/-- Time that passes over no instant keeps the laws of the clock: the work of an instant, and a move that waits, let no
time pass. -/
theorem State.ClockLaw.advance {n : Nat} (law : s.ClockLaw) (pass : s.mayPass n = true) :
    State.ClockLaw { s with timebase := s.timebase.advance n } := by
  obtain ⟨⟨ref, clock, start, epoch, boundary, mid⟩, allows⟩ := State.clockLaw_iff.1 law
  have reaches := (State.mayPass_iff epoch).1 pass
  obtain ⟨still, toBoundary, toMid, -⟩ := id reaches
  refine State.clockLaw_iff.2 ⟨⟨ref, clock, start, Nat.mod_lt _ (by decide), fun h => ?_, fun h => ?_⟩, fun c h => ?_⟩
  · rw [State.advance_eq_later epoch reaches] at h ⊢
    simp only [Timebase.later, Bool.or_eq_true, decide_eq_true_eq] at h ⊢
    rcases h with h | h
    · rw [still (.inl h), boundary h]
    · omega
  · rw [State.advance_eq_later epoch reaches] at h ⊢
    simp only [Timebase.later, Bool.or_eq_true, decide_eq_true_eq] at h ⊢
    rcases h with h | h
    · rw [still (.inr (.inl h)), mid h]
    · omega
  · have zero : n = 0 := still (.inr (.inr (.inr ⟨c, h⟩)))
    subst zero
    change (s.timebase.advance 0).epochTimer = 50000 ∧ (s.timebase.advance 0).midDue = false
    rw [Timebase.advance_zero epoch]
    exact allows c h

/-- A row that hands over no move keeps the law where it keeps that of the timebase against the chains as they stood. -/
theorem State.ClockLaw.of_turn {i : Instr} (turn : Radio.Turn i s.radio t.radio) (hm : i ≠ .midEpoch)
    (base : t.timebase.Lawful) (allows : ∀ c, t.timebase.Allows (s.chain c)) : t.ClockLaw := by
  refine State.clockLaw_iff.2 ⟨base, fun c h => ?_⟩
  rcases (turn.chain c).handed with e | e | e
  · exact allows c (by rw [← h]; exact congrArg Option.isSome e.symm)
  · simp [State.chain, e] at h
  · exact absurd e hm

/-- At mid-epoch, which the counter has reached, the epoch timer stands at 50,000 (R147). -/
theorem State.ClockLaw.atMidEpoch (law : s.ClockLaw) (pass : s.mayPass s.timebase.untilMidEpoch = true) :
    (s.timebase.advance s.timebase.untilMidEpoch).epochTimer = 50000 := by
  obtain ⟨-, -, -, epoch, -, mid⟩ := law.1
  obtain ⟨still, toBoundary, -⟩ := (State.mayPass_iff epoch).1 pass
  rw [Timebase.advance_epochTimer]
  unfold Timebase.untilMidEpoch midEpochAt epochLength at toBoundary ⊢
  split at toBoundary
  · next h => rw [if_pos h]; simp [mid h]
  · next h =>
    rw [if_neg h]
    split at toBoundary
    · next lt => rw [if_pos lt]; omega
    · omega

theorem exec_keeps_clockLaw {c : Instr} (law : s.ClockLaw) (h : exec c s = .next t) : t.ClockLaw := by
  by_cases hp : c = .powerOnReset
  · subst hp
    cases h
    exact State.clockLaw_iff.2 ⟨by simp [State.reset, Timebase.reset, Timebase.Lawful], fun d h => by cases d <;> cases h⟩
  obtain ⟨base, allows⟩ := State.clockLaw_iff.1 law
  by_cases hr : c = .reset
  · subst hr
    change execReset s = .next t at h
    unfold execReset at h
    split at h
    · cases h; exact State.clockLaw_iff.2 ⟨base, fun d => by cases d; exacts [allows .A, allows .B]⟩
    · cases h; exact law
  have turn := exec_radio_turn hp hr h
  by_cases hb : Block.timebase ∈ blocksOf c
  case neg =>
    have same := (exec_frame h).timebase hb
    exact State.ClockLaw.of_turn turn (fun e => by simp [e, blocksOf] at hb) (same ▸ base) (fun d => same ▸ allows d)
  obtain ⟨ref, clock, start, rest⟩ := id base
  cases c
  case powerOnReset => exact absurd rfl hp
  case epochBoundary =>
    cases h
    rcases s.atInstant_timebase (f := fun b => { b with boundaryDue := false }) State.boundaryWork_timebase with
      ⟨pass, e⟩ | ⟨-, e⟩
    · obtain ⟨⟨ref, clock, start, epoch, -, mid⟩, allows⟩ := State.clockLaw_iff.1 (law.advance pass)
      exact State.ClockLaw.of_turn turn nofun (by rw [e]; exact ⟨ref, clock, start, epoch, nofun, mid⟩)
        (fun d => by rw [e]; exact allows d)
    · rw [e]; exact law
  case midEpoch =>
    cases h
    rcases s.atInstant_timebase (f := fun b => { b with midDue := false }) State.midEpochWork_timebase with
      ⟨pass, e⟩ | ⟨-, e⟩
    · obtain ⟨⟨ref, clock, start, epoch, boundary, -⟩, -⟩ := State.clockLaw_iff.1 (law.advance pass)
      refine State.clockLaw_iff.2 ⟨by rw [e]; exact ⟨ref, clock, start, epoch, boundary, nofun⟩, fun d _ => ?_⟩
      rw [e]
      exact ⟨law.atMidEpoch pass, rfl⟩
    · rw [e]; exact law
  case lockTimerExpiry c =>
    change execLockTimerExpiry c s = .next t at h
    unfold execLockTimerExpiry at h
    split at h
    swap
    · cases h; exact law
    next e _ _ =>
    cases h
    rcases s.atInstant_timebase (n := s.timebase.remaining e) (work := fun s => s.failMove c .noLock) (f := id)
      (fun u => by rw [State.failMove, State.raise_timebase]; rfl) with ⟨pass, e'⟩ | ⟨-, e'⟩
    · obtain ⟨base, allows⟩ := State.clockLaw_iff.1 (law.advance pass)
      exact State.ClockLaw.of_turn turn nofun (by rw [e']; exact base) (fun d => by rw [e']; exact allows d)
    · rw [e']; exact law
  case dwellTimerExpiry c =>
    change execDwellTimerExpiry c s = .next t at h
    unfold execDwellTimerExpiry at h
    split at h
    swap
    · cases h; exact law
    next e _ _ =>
    cases h
    rcases s.atInstant_timebase (n := s.timebase.remaining e) (work := fun s => s.completeMove c false) (f := id)
      (fun u => by rw [State.completeMove, State.raise_timebase]; rfl) with ⟨pass, e'⟩ | ⟨-, e'⟩
    · obtain ⟨base, allows⟩ := State.clockLaw_iff.1 (law.advance pass)
      exact State.ClockLaw.of_turn turn nofun (by rw [e']; exact base) (fun d => by rw [e']; exact allows d)
    · rw [e']; exact law
  case qualificationExpiry =>
    change execQualificationExpiry s = .next t at h
    unfold execQualificationExpiry at h
    split at h
    case h_1 e hq =>
      cases h
      rcases s.atInstant_timebase (n := s.timebase.remaining e) (f := Timebase.qualified) State.qualify_timebase with
        ⟨pass, e'⟩ | ⟨-, e'⟩
      · obtain ⟨⟨-, -, -, rest⟩, allows⟩ := State.clockLaw_iff.1 (law.advance pass)
        refine State.ClockLaw.of_turn turn nofun ?_ (fun d => by rw [e']; exact allows d)
        rw [e']
        refine ⟨?_, fun _ => rfl, fun hc => absurd hc ?_, rest⟩
        · simpa [Timebase.qualified, hq] using ref
        · simp only [Timebase.qualified]
          split
          · simp
          · assumption
      · rw [e']; exact law
    all_goals cases h; exact law
  case restoreClock =>
    change execRestoreClock s = .next t at h
    unfold execRestoreClock at h
    split at h
    swap
    · cases h; exact law
    split at h
    · next hq =>
      cases h
      exact State.clockLaw_iff.2 ⟨⟨ref, fun _ => hq, nofun, rest⟩, allows⟩
    all_goals cases h; exact law
  case referenceLoss =>
    change execReferenceLoss s = .next t at h
    unfold execReferenceLoss at h
    split at h
    swap
    · cases h; exact law
    dsimp only at h
    split at h
    · next hc =>
      cases h
      refine State.ClockLaw.of_turn turn nofun ?_ ?_
      · rw [State.raise_timebase]; exact ⟨by simp, nofun, nofun, rest⟩
      · rw [State.raise_timebase]; exact allows
    · next hc =>
      cases h
      exact State.clockLaw_iff.2 ⟨⟨by simp, fun h => absurd (hc.symm.trans h) (by simp), fun _ => by simp, rest⟩, allows⟩
    · next hc =>
      cases h
      exact State.clockLaw_iff.2 ⟨⟨by simp, fun h => absurd (hc.symm.trans h) (by simp), fun _ => by simp, rest⟩, allows⟩
  case referenceReturn =>
    change execReferenceReturn s = .next t at h
    unfold execReferenceReturn at h
    split at h
    · cases h; exact law
    next absent =>
    cases h
    have idle : s.timebase.qual = .idle := ref.1 (by simpa using absent)
    exact State.clockLaw_iff.2 ⟨⟨by simp, fun hc => absurd (clock hc) (by simp [idle]), fun _ => by simp, rest⟩, allows⟩
  all_goals exact absurd hb (by simp [blocksOf])

/-- Settles O57: counts saturate and values are clamped; an instant's work, and a move that waits, let no time pass. -/
theorem stepKeepsRangeAndClockLaws : Obligations.StepKeepsRangeAndClockLaws := fun _ _ h =>
  ⟨fun law => step_keeps (fun _ _ _ hu => hu) (fun _ _ _ => exec_keeps_rangeLaw) (fun _ _ hu => hu)
    (fun u _ hu => by
      obtain ⟨records, chainA, chainB, costs, rows, map, -, params, levels⟩ := hu
      exact ⟨records, chainA, chainB, costs, rows, map, Nat.mod_lt _ (by decide), params, levels⟩) law h,
   fun law => step_keeps (fun _ _ _ hu => hu) (fun _ _ _ => exec_keeps_clockLaw) (fun _ _ hu => hu)
    (fun _ pass hu => hu.advance pass) law h⟩

end Clock

/-! ### The causes of changes (R109, R146 to R148, R167) -/

section Causes
variable {s t : State}

theorem State.rowSpan_of_untimed (s : State) {i : Instr} (h : isTimed i = false) : s.rowSpan i = 0 := by
  cases i <;> first | rfl | cases h

/-- The rows of requests carry no time, and none is the power-on reset. -/
theorem requestRow_command {b : Byte} {row : RequestRow} (h : requestRow b = some row) :
    isTimed row.command = false ∧ row.command ≠ .powerOnReset := by
  have all : ∀ r ∈ requestTable, isTimed r.command = false ∧ r.command ≠ .powerOnReset := by decide
  exact all _ (List.mem_of_find?_eq_some h)

/-- The expiry that the counter has reached is that of the row which takes it. -/
theorem State.rowSpan_expiryRow {c : Chain} (h : s.reached (s.chain c).expiry = true) :
    s.rowSpan ((s.chain c).expiryRow c) = 0 := by
  unfold State.reached ChainRec.expiry at h
  unfold ChainRec.expiryRow
  cases hs : (s.chain c).state with
  | retuning =>
    rw [hs] at h
    simp only [if_true, State.rowSpan]
    cases hl : (s.chain c).lockTimer <;> simp_all
  | dwell =>
    rw [hs] at h
    simp only [reduceCtorEq, if_false, State.rowSpan]
    cases hl : (s.chain c).dwellTimer <;> simp_all
  | unset | ready | fault => simp [hs] at h

/-- The work that the part takes of its own accord stands at its instant, and none is the power-on reset. -/
theorem State.rowSpan_of_mem_acts {c : Instr} (h : .command c ∈ s.acts) : s.rowSpan c = 0 ∧ c ≠ .powerOnReset := by
  unfold State.acts at h
  split at h
  · simp only [State.untimed, State.timed, List.mem_append, mem_dueWhen, Act.command.injEq, reduceCtorEq, and_false,
      or_false] at h
    rcases h with ((((((⟨-, rfl⟩ | ⟨-, rfl⟩) | ⟨-, rfl⟩) | ⟨-, rfl⟩) | ⟨-, rfl⟩) | ⟨-, rfl⟩)) |
      ((((⟨due, rfl⟩ | ⟨due, rfl⟩) | ⟨due, rfl⟩) | ⟨due, rfl⟩) | ⟨due, rfl⟩)
    · exact ⟨rfl, nofun⟩
    · exact ⟨rfl, nofun⟩
    · exact ⟨rfl, nofun⟩
    · exact ⟨rfl, nofun⟩
    · exact ⟨rfl, nofun⟩
    · exact ⟨rfl, nofun⟩
    · exact ⟨by simp [State.rowSpan, Timebase.untilBoundary, due], nofun⟩
    · exact ⟨by simp [State.rowSpan, Timebase.untilMidEpoch, due], nofun⟩
    · exact ⟨State.rowSpan_expiryRow (c := .A) due, by unfold ChainRec.expiryRow; split <;> exact nofun⟩
    · exact ⟨State.rowSpan_expiryRow (c := .B) due, by unfold ChainRec.expiryRow; split <;> exact nofun⟩
    · refine ⟨?_, nofun⟩
      simp only [State.rowSpan]
      unfold State.reached at due
      cases hq : s.timebase.qual.expiry <;> simp_all
  · unfold State.immediate State.requestAct at h
    split at h
    · next row hrow =>
      obtain ⟨b, -, hb⟩ := Option.bind_eq_some_iff.1 hrow
      simp only [List.mem_append, mem_dueWhen, Act.command.injEq] at h
      rcases h with ⟨-, rfl⟩ | ⟨-, rfl⟩
      · exact ⟨s.rowSpan_of_untimed (requestRow_command hb).1, (requestRow_command hb).2⟩
      · exact ⟨rfl, nofun⟩
    · simp only [List.nil_append, mem_dueWhen, Act.command.injEq] at h
      rw [h.2]
      exact ⟨rfl, nofun⟩

/-- A request that stands in EXECUTION and has not acted is the only act where no hand-over is due (R167, R88). -/
theorem State.acts_of_unserved {b : Byte} {row : RequestRow} (unserved : s.Unserved) (code : s.link.code = some b)
    (hrow : requestRow b = some row)
    (idle : s.predictor.engine = .idle → s.predictor.queue = [] ∧ s.predictor.preview = none) :
    s.acts = [.command row.command] := by
  have due : s.requestDue = true := by
    obtain ⟨phase, notSweep, notPreview⟩ := unserved
    simp only [State.requestDue, sweepCode, previewCode, Bool.and_eq_true, Bool.not_eq_true', beq_iff_eq]
    refine ⟨⟨phase, ?_⟩, ?_⟩
    · rw [← Bool.not_eq_true, Bool.and_eq_true, beq_iff_eq]; exact notSweep
    · rw [← Bool.not_eq_true, Bool.and_eq_true, beq_iff_eq]; exact notPreview
  have settled : s.predictor.handOverDue = false := by
    unfold Predictor.handOverDue
    by_cases he : s.predictor.engine = .idle
    · simp [he, (idle he).1, (idle he).2]
    · simp [he]
  have immediate : s.immediate = [.command row.command] := by
    simp [State.immediate, State.requestAct, code, hrow, due, settled, dueWhen]
  rw [State.acts, immediate]
  rfl

/-- The rows that may carry time, by name. -/
theorem isTimed_iff {i : Instr} : isTimed i = true ↔ i = .epochBoundary ∨ i = .midEpoch ∨ i = .qualificationExpiry
    ∨ ∃ c, i = .lockTimerExpiry c ∨ i = .dwellTimerExpiry c := by
  cases i <;> simp [isTimed]

/-- Settles O60: a row's turn of a chain and of the clock names its cause, time passes to the instant of a timed row
alone, and the acts of an idle step stand at their instants. -/
theorem statesChangeByTheirCauses : Obligations.StatesChangeByTheirCauses := by
  refine ⟨fun i s t hp he h => ?_, fun s t hpend he h => ?_, fun s b row hpend unserved code hrow idle => ?_,
    fun i s t hp hr h => ⟨fun c hc => ((exec_radio_turn hp hr h).chain c).cause hc, fun hc => (exec_clock hp h).resolve_left hc⟩⟩
  · obtain ⟨n, reaches, time, epoch, cause⟩ := exec_time hp he h
    exact ⟨n, reaches, time, epoch, cause.imp id fun ⟨timed, _⟩ => isTimed_iff.1 timed⟩
  · rcases step_cases h with ⟨c, rest, hc, -⟩ | ⟨-, ⟨c, mem, hx⟩ | ⟨-, rfl⟩ | ⟨mem, rfl⟩ | rfl⟩
    · simp [hpend] at hc
    · obtain ⟨span, hp⟩ := State.rowSpan_of_mem_acts mem
      refine ⟨(exec_frame hx).pending.trans hpend, .inl ?_⟩
      obtain ⟨n, -, time, epoch, cause⟩ := exec_time hp (s := s.chosen) he hx
      have zero : n = 0 := cause.elim id fun ⟨_, e⟩ => e.trans span
      subst zero
      exact ⟨(by simpa using time : t.timebase.time = s.chosen.timebase.time), by rw [epoch]; exact Nat.mod_eq_of_lt he⟩
    · exact ⟨hpend, .inl ⟨rfl, rfl⟩⟩
    · have reaches := (State.mayPass_iff he).1 (State.microsecond_of_mem_acts mem)
      refine ⟨hpend, .inr ⟨reaches, ?_⟩⟩
      rw [← State.advance_eq_later he reaches]
      rfl
    · exact ⟨hpend, .inl ⟨rfl, rfl⟩⟩
  · have acts := State.acts_of_unserved unserved code hrow idle
    have next : s.nextAct = some (.command row.command) := by
      rw [State.nextAct, acts, List.length_singleton, Nat.mod_one]
      rfl
    have runs : step s = exec row.command s.chosen := by simp only [step, hpend, next]
    exact runs

end Causes

end Sys2Proof.Machine
end

section
/-! The law of the link, the sweep, the PREVIEW and the engine (R88, R103, R161, R164, R168, R192): a short request ends
with its result or leaves the link, and the rows of the link, the sweep and the predictor are followed one by one. -/

namespace Sys2Proof.Machine

/-! ### The predictor (R88) -/

section Predictor
variable {s u : State} {p : Predictor}

/-- A busy engine serves a query that stands in the queue, or a PREVIEW that stands. -/
def Predictor.Serves (p : Predictor) : Prop :=
  ∀ client n f, p.engine = .evaluating client n f →
    (client = .scheduler → p.queue ≠ []) ∧ (client = .preview → p.preview.isSome = true)

theorem Predictor.lawful_iff : p.Lawful ↔ (p.engine = .idle → p.queue = [] ∧ p.preview = none) ∧ p.Serves := by
  refine and_congr_right fun _ => ?_
  cases he : p.engine with
  | idle => simp [Predictor.Serves, he]
  | evaluating client n f => simp [Predictor.Serves, he]

/-- The arbiter leaves the engine IDLE only while no work waits (R88). -/
theorem State.handOver_lawful (h : u.predictor.Serves) : u.handOver.predictor.Lawful := by
  refine Predictor.lawful_iff.2 ?_
  rcases u.handOver_cases with ⟨q, rest, -, hq, e⟩ | ⟨p, -, hq, hp, e⟩ | ⟨he, hq, hp, e⟩ | ⟨he, e⟩
  · rw [e]
    refine ⟨nofun, fun client n f h => ?_⟩
    cases h
    exact ⟨fun _ => by simp [State.beginEvaluation, hq], nofun⟩
  · rw [e]
    refine ⟨nofun, fun client n f h => ?_⟩
    cases h
    exact ⟨nofun, fun _ => by simp [State.beginEvaluation, hp]⟩
  · rw [e]; exact ⟨fun _ => ⟨hq, hp⟩, h⟩
  · rw [e]; exact ⟨fun h => absurd h he, h⟩

theorem Predictor.serves_of_idle (h : p.engine = .idle) : p.Serves := by
  intro client n f he
  cases h.symm.trans he

@[simp] theorem State.handOver_preview : u.handOver.predictor.preview = u.predictor.preview := by rw [u.handOver_frame]
@[simp] theorem State.handOver_link : u.handOver.link = u.link := by rw [u.handOver_frame]
@[simp] theorem State.handOver_sweep : u.handOver.sweep = u.sweep := by rw [u.handOver_frame]

end Predictor

/-! ### How a request ends -/

section Answers
variable {s t u : State} {code : Byte} {bs : List Byte}

/-- A request row leaves the link, or ends the request of its code with a result. -/
def State.Answers (s : State) (code : Byte) (t : State) : Prop :=
  t.link = s.link ∨ (s.link.phase = .execution ∧ s.link.code = some code
    ∧ ∃ b bs, t.link = { s.link with phase := .result, result := b :: bs, consumed := 0 })

theorem State.Answers.none : s.Answers code s := .inl rfl

theorem State.Answers.finish {b : Byte} {more : List Byte} (h : s.request code = some bs) (hl : u.link = s.link) :
    s.Answers code (u.finish (b :: more)) := by
  obtain ⟨phase, hc, -⟩ := State.request_eq_some.1 h
  exact .inr ⟨phase, hc, b, more, by rw [State.link_finish, hl]⟩

theorem execReadStatus_answers (h : execReadStatus s = .next t) : s.Answers 0x01 t := by
  unfold execReadStatus at h
  split at h
  · next hx => cases h; exact .finish hx rfl
  · cases h; exact .none

theorem execSetDomain_answers (h : execSetDomain s = .next t) : s.Answers 0x10 t := by
  unfold execSetDomain at h
  split at h
  swap
  · cases h; exact .none
  next hx =>
  split at h
  · cases h; exact .finish hx rfl
  split at h <;> cases h <;> exact .finish hx rfl

theorem execSetParameter_answers (h : execSetParameter s = .next t) : s.Answers 0x11 t := by
  unfold execSetParameter at h
  split at h
  swap
  · cases h; exact .none
  next hx =>
  split at h
  · cases h; exact .finish hx rfl
  · cases h; exact .finish hx (State.link_setParam ..)

theorem execSetNoticeLevel_answers (h : execSetNoticeLevel s = .next t) : s.Answers 0x12 t := by
  unfold execSetNoticeLevel at h
  split at h
  swap
  · cases h; exact .none
  next hx =>
  split at h <;> cases h <;> exact .finish hx rfl

theorem execSetTuneCode_answers (h : execSetTuneCode s = .next t) : s.Answers 0x13 t := by
  unfold execSetTuneCode at h
  split at h
  swap
  · cases h; exact .none
  next hx =>
  split at h
  · cases h; exact .finish hx rfl
  dsimp only at h
  split at h <;> cases h <;> exact .finish hx rfl

theorem execSetAuto_answers (h : execSetAuto s = .next t) : s.Answers 0x14 t := by
  unfold execSetAuto at h
  split at h
  swap
  · cases h; exact .none
  next hx =>
  split at h <;> cases h <;> exact .finish hx rfl

theorem execRestoreClock_answers (h : execRestoreClock s = .next t) : s.Answers 0x15 t := by
  unfold execRestoreClock at h
  split at h
  swap
  · cases h; exact .none
  next hx =>
  split at h <;> cases h <;> exact .finish hx rfl

theorem execMove_answers (h : execMove s = .next t) : s.Answers 0x20 t := by
  unfold execMove at h
  split at h
  swap
  · cases h; exact .none
  next hx =>
  split at h
  swap
  · cases h; exact .finish hx rfl
  split at h <;> cases h <;> exact .finish hx rfl

theorem execStep_answers (h : execStep s = .next t) : s.Answers 0x21 t := by
  unfold execStep at h
  split at h
  swap
  · cases h; exact .none
  next hx =>
  split at h
  · cases h; exact .finish hx rfl
  split at h
  · cases h; exact .finish hx rfl
  split at h
  · cases h; exact .finish hx rfl
  dsimp only at h
  split at h
  · cases h; exact .finish hx rfl
  split at h <;> cases h <;> exact .finish hx rfl

theorem execSetChannel_answers (h : execSetChannel s = .next t) : s.Answers 0x22 t := by
  unfold execSetChannel at h
  split at h
  swap
  · cases h; exact .none
  next hx =>
  split at h
  swap
  · cases h; exact .finish hx rfl
  split at h <;> cases h <;> exact .finish hx rfl

theorem execAbortMove_answers (h : execAbortMove s = .next t) : s.Answers 0x23 t := by
  unfold execAbortMove at h
  split at h
  swap
  · cases h; exact .none
  next hx =>
  split at h
  · cases h; exact .finish hx rfl
  split at h
  · cases h
    refine .finish hx ?_
    rw [State.completeMove, State.raise_link]
    rfl
  all_goals cases h; exact .finish hx rfl

theorem execPin_answers (h : execPin s = .next t) : s.Answers 0x30 t := by
  unfold execPin at h
  split at h
  · cases h; exact .none
  next q hq =>
  obtain ⟨bs, hx, -⟩ := Option.bind_eq_some_iff.1 hq
  split at h
  · cases h; exact .finish hx rfl
  split at h
  · cases h; exact .finish hx rfl
  split at h <;> cases h <;> exact .finish hx rfl

theorem State.confirm_link (s : State) (i : Nat) : (s.confirm i).link = s.link := by
  obtain ⟨_, _, e⟩ := s.confirm_writes i
  rw [e]

theorem execSetOrigin_answers (h : execSetOrigin s = .next t) : s.Answers 0x31 t := by
  unfold execSetOrigin at h
  split at h
  swap
  · cases h; exact .none
  next hx =>
  split at h
  · cases h; exact .finish hx rfl
  split at h
  · cases h; exact .finish hx rfl
  split at h
  · cases h; exact .finish hx rfl
  next u hu =>
  cases h
  refine .finish hx ?_
  split at hu
  · unfold State.pinRecord at hu
    split at hu
    · cases hu; rfl
    split at hu
    · cases hu
    split at hu
    · cases hu
    · cases hu; exact State.confirm_link _ _
  · cases hu
    unfold State.unpinRecord
    split <;> rfl

theorem execRetire_answers (h : execRetire s = .next t) : s.Answers 0x32 t := by
  unfold execRetire at h
  split at h
  swap
  · cases h; exact .none
  next hx =>
  split at h <;> cases h <;> exact .finish hx rfl

theorem execOpenRecord_answers (h : execOpenRecord s = .next t) : s.Answers 0x40 t := by
  unfold execOpenRecord at h
  split at h
  swap
  · cases h; exact .none
  next hx =>
  split at h
  · cases h; exact .finish hx rfl
  split at h
  · cases h; exact .finish hx rfl
  cases h
  refine .finish hx ?_
  obtain ⟨_, _, e⟩ := s.letGo.hold_writes _
  obtain ⟨_, _, e'⟩ := s.letGo_writes
  rw [e, e']

theorem execReadRecord_answers (h : execReadRecord s = .next t) : s.Answers 0x41 t := by
  unfold execReadRecord at h
  split at h
  swap
  · cases h; exact .none
  next hx =>
  split at h <;> cases h <;> exact .finish hx rfl

theorem execEditField_answers (h : execEditField s = .next t) : s.Answers 0x42 t := by
  unfold execEditField at h
  split at h
  swap
  · cases h; exact .none
  next hx =>
  split at h
  · cases h; exact .finish hx rfl
  split at h
  · cases h; exact .finish hx rfl
  split at h <;> cases h <;> exact .finish hx rfl

theorem execCloseRecord_answers (h : execCloseRecord s = .next t) : s.Answers 0x43 t := by
  unfold execCloseRecord at h
  split at h
  swap
  · cases h; exact .none
  next hx =>
  split at h
  · cases h; exact .finish hx rfl
  · cases h; exact .finish hx rfl
  next commit k _ _ =>
  cases h
  refine .finish hx ?_
  cases commit
  · obtain ⟨_, _, e⟩ := s.closeDiscard_writes k
    exact (congrArg State.link e :)
  · obtain ⟨_, _, _, e⟩ := s.closeCommit_writes k
    exact (congrArg State.link e :)

theorem State.openNext_answers (hx : s.request code = some bs) (hl : u.link = s.link) (held : Option Nat) (status : Byte) :
    s.Answers code (u.openNext held status) := by
  unfold State.openNext
  split
  · next i _ =>
    refine .finish hx ?_
    obtain ⟨_, _, e⟩ := u.hold_writes i
    rw [e]; exact hl
  · exact .finish hx hl

theorem execNextRecord_answers (h : execNextRecord s = .next t) : s.Answers 0x44 t := by
  unfold execNextRecord at h
  split at h
  swap
  · cases h; exact .none
  next hx =>
  split at h
  · cases h; exact State.openNext_answers hx rfl _ _
  next k _ =>
  dsimp only at h
  split at h
  · cases h; exact .finish hx rfl
  · cases h
    obtain ⟨_, _, _, e⟩ := s.closeCommit_writes k
    exact State.openNext_answers hx (congrArg State.link e :) _ _

theorem execReadCosts_answers (h : execReadCosts s = .next t) : s.Answers 0x52 t := by
  unfold execReadCosts at h
  split at h
  · next hx => cases h; exact .finish hx rfl
  · cases h; exact .none

theorem execFetchNotice_answers (h : execFetchNotice s = .next t) : s.Answers 0x60 t := by
  unfold execFetchNotice at h
  split at h
  swap
  · cases h; exact .none
  next hx =>
  split at h <;> cases h <;> exact .finish hx rfl

/-- The short requests' rows: they write neither the sweep nor the predictor, RESET excepted. -/
def isShortRequest : Instr → Bool
  | .readStatus | .setDomain | .setParameter | .setNoticeLevel | .setTuneCode | .setAuto | .restoreClock | .move | .step
  | .setChannel | .abortMove | .pin | .setOrigin | .retire | .openRecord | .readRecord | .editField | .closeRecord
  | .nextRecord | .readCosts | .fetchNotice => true
  | _ => false

/-- A short request leaves the link, or ends with a result; its code is not that of a SWEEP or a PREVIEW. -/
theorem exec_answers {c : Instr} (hc : isShortRequest c = true) (h : exec c s = .next t) :
    ∃ code, code ≠ sweepCode ∧ code ≠ previewCode ∧ s.Answers code t := by
  cases c
  case readStatus => exact ⟨_, by decide, by decide, execReadStatus_answers h⟩
  case setDomain => exact ⟨_, by decide, by decide, execSetDomain_answers h⟩
  case setParameter => exact ⟨_, by decide, by decide, execSetParameter_answers h⟩
  case setNoticeLevel => exact ⟨_, by decide, by decide, execSetNoticeLevel_answers h⟩
  case setTuneCode => exact ⟨_, by decide, by decide, execSetTuneCode_answers h⟩
  case setAuto => exact ⟨_, by decide, by decide, execSetAuto_answers h⟩
  case restoreClock => exact ⟨_, by decide, by decide, execRestoreClock_answers h⟩
  case move => exact ⟨_, by decide, by decide, execMove_answers h⟩
  case step => exact ⟨_, by decide, by decide, execStep_answers h⟩
  case setChannel => exact ⟨_, by decide, by decide, execSetChannel_answers h⟩
  case abortMove => exact ⟨_, by decide, by decide, execAbortMove_answers h⟩
  case pin => exact ⟨_, by decide, by decide, execPin_answers h⟩
  case setOrigin => exact ⟨_, by decide, by decide, execSetOrigin_answers h⟩
  case retire => exact ⟨_, by decide, by decide, execRetire_answers h⟩
  case openRecord => exact ⟨_, by decide, by decide, execOpenRecord_answers h⟩
  case readRecord => exact ⟨_, by decide, by decide, execReadRecord_answers h⟩
  case editField => exact ⟨_, by decide, by decide, execEditField_answers h⟩
  case closeRecord => exact ⟨_, by decide, by decide, execCloseRecord_answers h⟩
  case nextRecord => exact ⟨_, by decide, by decide, execNextRecord_answers h⟩
  case readCosts => exact ⟨_, by decide, by decide, execReadCosts_answers h⟩
  case fetchNotice => exact ⟨_, by decide, by decide, execFetchNotice_answers h⟩
  all_goals cases hc

end Answers

/-! ### The link (R161, R164, R168) -/

section Link
variable {s t u : State} {k : Link}

/-- A request in EXECUTION ends in RESULT with the first byte to be read. -/
theorem Link.Lawful.finish (law : k.Lawful) (hx : k.phase = .execution) (b : Byte) (bs : List Byte) :
    Link.Lawful { k with phase := .result, result := b :: bs, consumed := 0 } := by
  obtain ⟨-, code, -, -, begun⟩ := law
  refine ⟨nofun, fun _ => code (by simp [hx]), nofun, fun _ => by simp, fun x h => ?_⟩
  obtain ⟨transaction, phase⟩ := begun x h
  refine ⟨transaction, .inr ⟨?_, rfl⟩⟩
  rcases phase with e | ⟨e, -⟩
  · exact e.trans hx
  · exact e

/-- No exchange is under way once one has completed. -/
theorem Link.Lawful.shiftStatus (law : k.Lawful) (m : Option Byte) : Link.Lawful { k with miso := m, begun := none } := by
  obtain ⟨idle, code, command, result, -⟩ := law
  exact ⟨idle, code, command, result, nofun⟩

/-- With the link outside EXECUTION neither a sweep nor a PREVIEW stands. -/
theorem State.LinkLaw.outside (law : s.LinkLaw) (h : s.link.phase ≠ .execution) :
    s.sweep = none ∧ s.predictor.preview = none := by
  obtain ⟨-, -, sweep, -, preview⟩ := law
  refine ⟨?_, ?_⟩
  · by_contra hs
    exact h (sweep (Option.isSome_iff_ne_none.2 hs)).1
  · by_contra hp
    exact h (preview (Option.isSome_iff_ne_none.2 hp)).1

/-- In EXECUTION of another request neither stands. -/
theorem State.LinkLaw.other (law : s.LinkLaw) {code : Byte} (h : s.link.code = some code) :
    (code ≠ sweepCode → s.sweep = none) ∧ (code ≠ previewCode → s.predictor.preview = none) := by
  obtain ⟨-, -, sweep, -, preview⟩ := law
  refine ⟨fun hc => ?_, fun hc => ?_⟩
  · by_contra hs
    exact hc (Option.some.inj (h.symm.trans (sweep (Option.isSome_iff_ne_none.2 hs)).2))
  · by_contra hp
    exact hc (Option.some.inj (h.symm.trans (preview (Option.isSome_iff_ne_none.2 hp)).2))

/-- The law with neither a sweep nor a PREVIEW. -/
theorem State.linkLaw_of_none (link : s.link.Lawful) (predictor : s.predictor.Lawful) (sweep : s.sweep = none)
    (preview : s.predictor.preview = none) : s.LinkLaw :=
  ⟨link, predictor, by simp [sweep], by simp [sweep], by simp [preview]⟩

/-- A row that leaves the link's phase and code, the sweep and the predictor, and keeps the link lawful. -/
theorem State.LinkLaw.of_link (law : s.LinkLaw) (link : t.link.Lawful) (phase : t.link.phase = s.link.phase)
    (code : t.link.code = s.link.code) (sweep : t.sweep = s.sweep) (predictor : t.predictor = s.predictor) : t.LinkLaw := by
  obtain ⟨-, hp, hs, hw, hv⟩ := law
  exact ⟨link, predictor ▸ hp, by rwa [sweep, phase, code], by rwa [sweep], by rwa [predictor, phase, code]⟩

theorem execShortRequest_keeps_linkLaw {c : Instr} (hc : isShortRequest c = true) (law : s.LinkLaw)
    (h : exec c s = .next t) : t.LinkLaw := by
  have sweep : t.sweep = s.sweep := (exec_frame h).sweep (by cases c <;> simp_all [blocksOf, isShortRequest])
  have predictor : t.predictor = s.predictor :=
    (exec_frame h).predictor (by cases c <;> simp_all [blocksOf, isShortRequest])
  obtain ⟨code, notSweep, notPreview, answers⟩ := exec_answers hc h
  rcases answers with e | ⟨phase, hcode, b, bs, e⟩
  · exact law.of_link (e ▸ law.1) (by rw [e]) (by rw [e]) sweep predictor
  · obtain ⟨noSweep, noPreview⟩ := law.other hcode
    exact State.linkLaw_of_none (e ▸ law.1.finish phase b bs) (predictor ▸ law.2.1) (sweep.trans (noSweep notSweep))
      ((congrArg Predictor.preview predictor).trans (noPreview notPreview))

/-- A byte taken as a request code finds no request, and leaves one, or its refusal (R165). -/
theorem State.takeCode_lawful (begun : s.link.begun = none) (b : Byte) : (s.takeCode b).link.Lawful := by
  unfold State.takeCode
  dsimp only
  split
  · exact ⟨nofun, fun _ => rfl, nofun, fun _ => by simp [Link.cleared], fun x h => by simp [Link.cleared, begun] at h⟩
  · next row _ =>
    split
    · exact ⟨nofun, fun _ => rfl, nofun, nofun, fun x h => by simp [Link.execute, Link.cleared, begun] at h⟩
    · next params =>
      exact ⟨nofun, fun _ => rfl, fun _ => Nat.pos_of_ne_zero params, nofun, fun x h => by simp [Link.cleared, begun] at h⟩

theorem State.takeCode_frame (b : Byte) : (s.takeCode b).sweep = s.sweep ∧ (s.takeCode b).predictor = s.predictor := by
  unfold State.takeCode
  dsimp only
  split <;> exact ⟨rfl, rfl⟩

/-- A request code is taken in IDLE or in RESULT, where neither a sweep nor a PREVIEW stands. -/
theorem State.LinkLaw.takeCode (law : s.LinkLaw) (outside : s.link.phase ≠ .execution) (b : Byte) :
    (s.shiftStatus.takeCode b).LinkLaw := by
  obtain ⟨noSweep, noPreview⟩ := law.outside outside
  obtain ⟨sweep, predictor⟩ := s.shiftStatus.takeCode_frame b
  exact State.linkLaw_of_none (State.takeCode_lawful rfl b) (predictor ▸ law.2.1) (sweep.trans noSweep)
    ((congrArg Predictor.preview predictor).trans noPreview)

end Link

/-! ### Every row -/

section Rows
variable {s t : State}

theorem State.LinkLaw.shiftStatus (law : s.LinkLaw) : s.shiftStatus.LinkLaw :=
  law.of_link (law.1.shiftStatus _) rfl rfl rfl rfl

theorem Sweep.examine_lawful {w : Sweep} {x : Slot} (law : w.Lawful) (h : (w.examine x).stops = false) :
    (w.examine x).Lawful := by
  obtain ⟨lo, hi, -, -, -⟩ := law
  simp only [Sweep.stops, Bool.or_eq_false_iff, decide_eq_false_iff_not, not_le] at h
  exact ⟨lo, hi, h.1, h.2, Nat.mod_lt _ (by decide)⟩

theorem execSweep_keeps_linkLaw (law : s.LinkLaw) (h : execSweep s = .next t) : t.LinkLaw := by
  unfold execSweep at h
  split at h
  swap
  · cases h; exact law
  next hx noSweep =>
  obtain ⟨phase, code, -⟩ := State.request_eq_some.1 hx
  have invalid : (s.answer .invalid).LinkLaw :=
    State.linkLaw_of_none (law.1.finish phase _ _) law.2.1 noSweep ((law.other code).2 (by decide))
  split at h
  swap
  · cases h; exact invalid
  split at h
  · cases h; exact invalid
  next inside =>
  dsimp only at h
  cases h
  obtain ⟨link, predictor, -, -, preview⟩ := law
  refine ⟨link, predictor, fun _ => ⟨phase, code⟩, ?_, preview⟩
  rintro _ ⟨⟩
  refine ⟨?_, ?_, ?_, Nat.zero_lt_succ _, by dsimp only; omega⟩
  · simp [clampNat]
  · simp [clampNat]
  · simp [clampNat]

theorem execSweepExamination_keeps_linkLaw (law : s.LinkLaw) (h : execSweepExamination s = .next t) : t.LinkLaw := by
  unfold execSweepExamination at h
  split at h
  swap
  · cases h; exact law
  next w hx hw =>
  obtain ⟨phase, code, -⟩ := State.request_eq_some.1 hx
  dsimp only at h
  split at h
  · cases h
    exact State.linkLaw_of_none (law.1.finish phase _ _) law.2.1 rfl ((law.other code).2 (by decide))
  · next goes =>
    cases h
    obtain ⟨link, predictor, -, sweep, preview⟩ := law
    refine ⟨link, predictor, fun _ => ⟨phase, code⟩, ?_, preview⟩
    rintro _ ⟨⟩
    exact Sweep.examine_lawful (sweep w hw) (by simpa using goes)

theorem execPreview_keeps_linkLaw (law : s.LinkLaw) (h : execPreview s = .next t) : t.LinkLaw := by
  unfold execPreview at h
  split at h
  swap
  · cases h; exact law
  next hx noPreview =>
  obtain ⟨phase, code, -⟩ := State.request_eq_some.1 hx
  have noSweep := (law.other code).1 (by decide)
  dsimp only at h
  split at h
  · cases h
    exact State.linkLaw_of_none (law.1.finish phase _ _) law.2.1 noSweep noPreview
  · cases h
    obtain ⟨link, predictor, -⟩ := law
    obtain ⟨-, serves⟩ := Predictor.lawful_iff.1 predictor
    refine ⟨by rwa [State.handOver_link], State.handOver_lawful fun client n f he => ?_, by simp [noSweep],
      by simp [noSweep], fun _ => ?_⟩
    · exact ⟨(serves client n f he).1, fun _ => rfl⟩
    · rw [State.handOver_link]; exact ⟨phase, code⟩

/-- A hand-over keeps the law where the busy engine serves what stands. -/
theorem State.LinkLaw.handOver {u : State} (link : u.link.Lawful) (serves : u.predictor.Serves)
    (sweep : u.sweep.isSome = true → u.link.phase = .execution ∧ u.link.code = some sweepCode)
    (sweeps : ∀ w ∈ u.sweep, w.Lawful)
    (preview : u.predictor.preview.isSome = true → u.link.phase = .execution ∧ u.link.code = some previewCode) :
    u.handOver.LinkLaw :=
  ⟨by rwa [State.handOver_link], State.handOver_lawful serves, by rwa [State.handOver_sweep, State.handOver_link],
    by rwa [State.handOver_sweep], by rwa [State.handOver_preview, State.handOver_link]⟩

theorem execDelivery_keeps_linkLaw (law : s.LinkLaw) (h : execDelivery s = .next t) : t.LinkLaw := by
  unfold execDelivery at h
  split at h
  · cases h; exact law
  next client n found he =>
  dsimp only at h
  split at h
  · obtain ⟨link, -, sweep, sweeps, preview⟩ := law
    split at h <;> cases h <;> exact State.LinkLaw.handOver link (Predictor.serves_of_idle rfl) sweep sweeps preview
  · cases h
    have some := ((Predictor.lawful_iff.1 law.2.1).2 _ _ _ he).2 rfl
    obtain ⟨phase, code⟩ := law.2.2.2.2 some
    have noSweep := (law.other code).1 (by decide)
    exact State.LinkLaw.handOver (law.1.finish phase _ _) (Predictor.serves_of_idle rfl) (by simp [noSweep])
      (by simp [noSweep]) nofun

theorem execQueryArrival_keeps_linkLaw {frame : List Byte} (law : s.LinkLaw) (h : execQueryArrival frame s = .next t) :
    t.LinkLaw := by
  unfold execQueryArrival at h
  obtain ⟨link, predictor, sweep, sweeps, preview⟩ := id law
  split at h
  · cases h; exact law
  split at h
  · cases h; exact ⟨link, predictor, sweep, sweeps, preview⟩
  split at h
  · cases h
    obtain ⟨-, serves⟩ := Predictor.lawful_iff.1 predictor
    exact State.LinkLaw.handOver link (fun client n f he => ⟨fun _ => by simp, (serves client n f he).2⟩) sweep sweeps
      preview
  · cases h; exact ⟨link, predictor, sweep, sweeps, preview⟩

theorem Predictor.withdrawPreview_serves {p : Predictor} (h : p.Serves) : p.withdrawPreview.Serves := by
  unfold Predictor.withdrawPreview
  split
  · exact Predictor.serves_of_idle rfl
  · next n f he =>
    intro client n f he'
    cases he.symm.trans he'
    exact ⟨(h _ _ _ he).1, nofun⟩
  · next he => exact Predictor.serves_of_idle he

theorem Predictor.withdrawPreview_preview (p : Predictor) : p.withdrawPreview.preview = none := by
  unfold Predictor.withdrawPreview
  split <;> rfl

theorem execAbort_keeps_linkLaw {b : Byte} (law : s.LinkLaw) (h : execAbort b s = .next t) : t.LinkLaw := by
  cases h
  rcases s.written_cases .execution _ with ⟨-, phase, e⟩ | ⟨-, e⟩
  swap
  · rw [e]; exact law
  rw [e]
  have lawS := law.shiftStatus
  split
  · next code =>
    exact State.linkLaw_of_none (lawS.1.finish phase _ _) law.2.1 rfl ((law.other code).2 (by decide))
  split
  · next code =>
    have noSweep := (law.other code).1 (by decide)
    obtain ⟨-, serves⟩ := Predictor.lawful_iff.1 law.2.1
    have gone := s.predictor.withdrawPreview_preview
    refine State.LinkLaw.handOver (lawS.1.finish phase _ _) ?_ (fun h => ?_) (fun w hw => ?_) (fun h => ?_)
    · exact Predictor.withdrawPreview_serves serves
    · change s.sweep.isSome = true at h
      simp [noSweep] at h
    · change s.sweep = some w at hw
      simp [noSweep] at hw
    · change s.predictor.withdrawPreview.preview.isSome = true at h
      simp [gone] at h
  · exact lawS

theorem execParameterByte_keeps_linkLaw {b : Byte} (law : s.LinkLaw) (h : execParameterByte b s = .next t) : t.LinkLaw := by
  cases h
  rcases s.written_cases .command _ with ⟨-, phase, e⟩ | ⟨-, e⟩
  swap
  · rw [e]; exact law
  rw [e]
  obtain ⟨noSweep, noPreview⟩ := law.outside (by simp [phase])
  obtain ⟨link, predictor, -⟩ := law
  obtain ⟨-, code, -⟩ := link
  have some : s.link.code.isSome = true := code (by simp [phase])
  refine State.linkLaw_of_none ?_ predictor noSweep noPreview
  dsimp only
  split
  · exact ⟨nofun, fun _ => some, nofun, nofun, nofun⟩
  · next more =>
    change s.link.phase = .command at phase
    refine ⟨fun h => ?_, fun _ => some, fun _ => not_le.1 more, fun h => ?_, nofun⟩
    · exact absurd (phase.symm.trans h) (by simp)
    · exact absurd (phase.symm.trans h) (by simp)

theorem execReadResultByte_keeps_linkLaw (law : s.LinkLaw) (h : execReadResultByte s = .next t) : t.LinkLaw := by
  unfold execReadResultByte at h
  split at h
  swap
  · cases h; exact law
  split at h
  swap
  · cases h; exact law.shiftStatus
  next shown =>
  have result : s.link.phase = .result := by
    unfold State.shown at shown
    cases hb : s.link.begun with
    | none => rw [hb] at shown; exact shown
    | some x =>
      rw [hb] at shown
      rcases (law.1.2.2.2.2 x hb).2 with e | ⟨e, -⟩
      · exact e.symm.trans shown
      · exact absurd (e.symm.trans shown) (by simp)
  obtain ⟨noSweep, noPreview⟩ := law.outside (by simp [result])
  obtain ⟨⟨-, code, -, -, -⟩, predictor, -⟩ := law
  dsimp only at h
  cases h
  refine State.linkLaw_of_none ?_ predictor noSweep noPreview
  dsimp only
  split
  · exact ⟨fun _ => ⟨rfl, rfl, rfl⟩, fun h => absurd rfl h, nofun, nofun, nofun⟩
  · next more =>
    refine ⟨fun h => ?_, fun _ => code (by simp [result]), fun h => ?_, fun _ => not_le.1 more, nofun⟩
    · exact absurd (result.symm.trans h) (by simp)
    · exact absurd (result.symm.trans h) (by simp)

theorem exec_keeps_linkLaw {c : Instr} (law : s.LinkLaw) (h : exec c s = .next t) : t.LinkLaw := by
  cases hc : isShortRequest c with
  | true => exact execShortRequest_keeps_linkLaw hc law h
  | false =>
    by_cases hb : Block.link ∉ blocksOf c ∧ Block.sweep ∉ blocksOf c ∧ Block.predictor ∉ blocksOf c
    · obtain ⟨hl, hs, hp⟩ := hb
      have link := (exec_frame h).link hl
      exact law.of_link (link ▸ law.1) (by rw [link]) (by rw [link]) ((exec_frame h).sweep hs) ((exec_frame h).predictor hp)
    cases c
    case powerOnReset =>
      cases h
      exact State.linkLaw_of_none ⟨fun _ => ⟨rfl, rfl, rfl⟩, fun h => absurd rfl h, nofun, nofun, nofun⟩
        (Predictor.lawful_iff.2 ⟨fun _ => ⟨rfl, rfl⟩, Predictor.serves_of_idle rfl⟩) rfl rfl
    case reset =>
      change execReset s = .next t at h
      unfold execReset at h
      split at h
      swap
      · cases h; exact law
      · next hx =>
        obtain ⟨phase, -, -⟩ := State.request_eq_some.1 hx
        cases h
        exact State.linkLaw_of_none (law.1.finish phase _ _)
          (Predictor.lawful_iff.2 ⟨fun _ => ⟨rfl, rfl⟩, Predictor.serves_of_idle rfl⟩) rfl rfl
    case queryArrival => exact execQueryArrival_keeps_linkLaw law h
    case evaluationStart =>
      cases h
      obtain ⟨link, predictor, sweep, sweeps, preview⟩ := law
      exact State.LinkLaw.handOver link (Predictor.lawful_iff.1 predictor).2 sweep sweeps preview
    case answerFrameSent =>
      change execAnswerFrameSent s = .next t at h
      unfold execAnswerFrameSent at h
      split at h <;> cases h <;> exact law
    case delivery => exact execDelivery_keeps_linkLaw law h
    case preview => exact execPreview_keeps_linkLaw law h
    case sweep => exact execSweep_keeps_linkLaw law h
    case sweepExamination => exact execSweepExamination_keeps_linkLaw law h
    case abort b => exact execAbort_keeps_linkLaw (b := b) law h
    case parameterByte b => exact execParameterByte_keeps_linkLaw (b := b) law h
    case readResultByte => exact execReadResultByte_keeps_linkLaw law h
    case requestCode b =>
      cases h
      rcases s.written_cases .idle _ with ⟨-, phase, e⟩ | ⟨-, e⟩
      · rw [e]; exact law.takeCode (by simp [phase]) b
      · rw [e]; exact law
    case abandon b =>
      cases h
      rcases s.written_cases .result _ with ⟨-, phase, e⟩ | ⟨-, e⟩
      · rw [e]; exact law.takeCode (by simp [phase]) b
      · rw [e]; exact law
    case ignoredByte b =>
      cases h
      split
      · exact law
      · rcases s.written_cases .execution _ with ⟨-, -, e⟩ | ⟨-, e⟩
        · rw [e]; exact law.shiftStatus
        · rw [e]; exact law
    case selectAsserted =>
      change execSelectAsserted s = .next t at h
      unfold execSelectAsserted at h
      obtain ⟨idle, code, command, result, -⟩ := law.1
      split at h
      · cases h; exact law.of_link ⟨idle, code, command, result, nofun⟩ rfl rfl rfl rfl
      all_goals cases h; exact law
    case selectDeasserted =>
      cases h
      obtain ⟨idle, code, command, result, -⟩ := law.1
      exact law.of_link ⟨idle, code, command, result, nofun⟩ rfl rfl rfl rfl
    case statusExchange b =>
      change execStatusExchange b s = .next t at h
      unfold execStatusExchange at h
      obtain ⟨idle, code, command, result, -⟩ := law.1
      split at h
      · cases h; exact law.of_link ⟨idle, code, command, result, nofun⟩ rfl rfl rfl rfl
      · cases h; exact law.shiftStatus
      all_goals cases h; exact law
    case readStatus | setDomain | setParameter | setNoticeLevel | setTuneCode | setAuto | restoreClock | move | step
      | setChannel | abortMove | pin | setOrigin | retire | openRecord | readRecord | editField | closeRecord
      | nextRecord | readCosts | fetchNotice => cases hc
    all_goals exact absurd (by simp [blocksOf]) hb

/-- Settles O58: a short request ends in RESULT, where neither a sweep nor a PREVIEW stands; each row of the link, the
sweep and the predictor keeps its part, and an exchange begins in the present phase. -/
theorem stepKeepsLinkLaw : Obligations.StepKeepsLinkLaw := fun _ _ law h =>
  step_keeps (fun _ _ _ hu => hu) (fun _ _ _ => exec_keeps_linkLaw)
    (fun u ht hu => by
      obtain ⟨⟨idle, code, command, result, -⟩, rest⟩ := hu
      refine ⟨⟨idle, code, command, result, ?_⟩, rest⟩
      rintro _ ⟨⟩
      exact ⟨ht, .inl rfl⟩)
    (fun _ _ hu => hu) law h

end Rows

end Sys2Proof.Machine
end

section
/-! The values after the two resets, the laws at power-on (R28, R38, R106, R131, R133, R159, R162, R164, R206), and what
the ports and handles answer at once (R2, R29 to R35, R209, R210). -/

namespace Sys2Proof.Machine

/-! ### The laws at power-on -/

/-- Every slot is FREE after a power-on reset. -/
theorem Table.record_of_mem_reset {x : Slot} (h : x ∈ Table.reset.slots) : x.record = none := by
  rw [List.eq_of_mem_replicate h]
  rfl

/-- A law of the records holds of the table after a power-on reset. -/
theorem Table.all_reset (P : Record → Prop) : ∀ x ∈ Table.reset.slots, ∀ r ∈ x.record, P r := by
  intro x hx r hr
  rw [Table.record_of_mem_reset hx] at hr
  cases hr

/-- Settles O51: no slot holds a record, no queue an entry and no chain a channel. -/
theorem lawsHoldAtReset : Obligations.LawsHoldAtReset := by
  have chain : ChainRec.reset.RangeLawful := ⟨Nat.le_refl _, Nat.zero_le _⟩
  refine ⟨⟨Table.all_reset _, nofun, nofun⟩, Table.all_reset _, ⟨Table.all_reset _, nofun⟩,
    ⟨Table.reset_countsLaw, Nat.zero_le _, Table.all_reset _, nofun⟩,
    State.heldLaw_of_closed rfl rfl fun i hi r hr => ?_, ?_, ?_,
    Radio.lawful_of_unset (fun c => by cases c <;> exact ⟨rfl, rfl, rfl, rfl, rfl⟩) rfl,
    ⟨Table.all_reset _, chain, chain, Advisor.reset_lawful.1, Advisor.reset_lawful.2, rfl, Nat.zero_lt_succ _,
      Params.reset_rangeLawful, by decide⟩, ?_, ?_⟩
  · change (Table.reset.slot i).record = some r at hr
    rw [Table.slot_reset hi] at hr
    cases hr
  · simp [State.QueueLaw, State.reset, Intake.reset, Predictor.reset, Notices.reset]
  · simp [State.AttentionLaw, State.reset, Notices.reset, Notices.Calls]
  · exact State.clockLaw_iff.2 ⟨by decide, fun c h => by cases c <;> cases h⟩
  · exact State.linkLaw_of_none ⟨fun _ => ⟨rfl, rfl, rfl⟩, fun h => absurd rfl h, nofun, nofun, nofun⟩
      (Predictor.lawful_iff.2 ⟨fun _ => ⟨rfl, rfl⟩, Predictor.serves_of_idle rfl⟩) rfl rfl

/-! ### The two resets -/

/-- Settles O3: each value is the block's reset value. -/
theorem powerOnResetValues : Obligations.PowerOnResetValues := by
  refine ⟨rfl, fun s => ⟨_, rfl, rfl, fun i hi => Table.slot_reset hi, rfl, rfl, rfl, rfl, rfl,
    fun c => by cases c <;> rfl, rfl, rfl, rfl, rfl, rfl, ?_, rfl, rfl, rfl, rfl, rfl, rfl⟩⟩
  cases s.link.transaction <;> simp [Link.reset, Transaction.powerOn]

theorem execReset_of_executing {s : State} (h : s.Executing 0x02 []) : execReset s = .next (s.softReset.answer .ok) := by
  simp only [execReset, h.request]

theorem Table.slot_softReset {t : Table} {i : Nat} (h : i < t.slots.length) : t.softReset.slot i = (t.slot i).softReset := by
  simp [Table.slot, Table.softReset, List.getD, h]

/-- Settles O4: each value is the block's soft-reset value. -/
theorem softResetValues : Obligations.SoftResetValues := by
  intro s h
  refine ⟨_, execReset_of_executing h, List.length_map .., fun i hi => ?_, rfl, rfl, rfl, rfl, rfl,
    fun c => by cases c <;> rfl, rfl, rfl, rfl, rfl, rfl, rfl, rfl, rfl, rfl, rfl, rfl⟩
  change s.table.softReset.slot i = _
  rw [Table.slot_softReset hi, Table.record]
  cases hr : (s.table.slot i).record <;> simp [Slot.softReset, Slot.freed, hr]

/-! ### The ports (R29 to R35, R209, R210) -/

/-- The report of a frame of ten bytes or more. -/
theorem burstReportOf_frame (sig a1 a0 d1 d0 c w l t1 t0 : Byte) (more : List Byte) :
    ∃ r, burstReportOf (sig :: a1 :: a0 :: d1 :: d0 :: c :: w :: l :: t1 :: t0 :: more) = some r
      ∧ r.signature = sig ∧ r.age = (a1.toNat * 256 + a0.toNat) % 4096 ∧ r.duration = d1.toNat * 256 + d0.toNat
      ∧ r.centre = c.toNat % 128 ∧ r.width = w.toNat % 64 ∧ r.level = l.toInt
      ∧ r.tag = BitVec.ofNat 16 (t1.toNat * 256 + t0.toNat) :=
  ⟨_, rfl, rfl, by rw [← valueOf_pair], valueOf_pair .., rfl, rfl, rfl, by rw [← valueOf_pair]⟩

/-- The entry that a report of a kind gives when it is taken at a time (R30, R31). -/
def BurstReport.stamped (b : BurstReport) (now : Time) (kind : Signature) : Report :=
  { start := now - BitVec.ofNat 32 b.age, duration := b.duration, centre := clampNat 0 100 b.centre,
    span := reportSpan (clampNat 0 100 b.centre) (clampNat 1 40 b.width), level := clampInt (-100) (-10) b.level,
    signature := kind }

/-- A report of an assigned signature and a duration above 0 is stamped (R30, R31). -/
theorem BurstReport.stamp_of_signature {b : BurstReport} {kind : Signature} (now : Time) (hs : b.signatureOf = some kind)
    (hd : b.duration ≠ 0) : b.stamp now = some (b.stamped now kind) := by
  simp [BurstReport.stamp, BurstReport.stamped, hs, hd]

/-- A report of duration 0, or of an unassigned signature, is discarded (R32). -/
theorem BurstReport.stamp_eq_none {b : BurstReport} (now : Time) (h : b.duration = 0 ∨ b.signatureOf = none) :
    b.stamp now = none := by
  unfold BurstReport.stamp
  rcases h with h | h
  · split
    · rfl
    · rw [if_pos h]
  · simp [h]

section Arrival
variable {s : State} {frame : List Byte} {b : BurstReport}

theorem execReportArrival_of_stamp {r : Report} (hb : burstReportOf frame = some b) (hr : b.stamp s.now = some r) :
    execReportArrival frame s = .next (s.offerReport r) := by
  simp only [execReportArrival, hb, Option.bind_some, hr]

theorem execReportArrival_of_discard (hb : burstReportOf frame = some b) (h : b.duration = 0 ∨ b.signatureOf = none) :
    execReportArrival frame s = .next s := by
  simp only [execReportArrival, hb, Option.bind_some, BurstReport.stamp_eq_none s.now h]

end Arrival

/-- Settles O5: the frame gives the report, its stamp the entry, and the room in the queue the outcome. -/
theorem reportArrivalQueuesOrOverflows : Obligations.ReportArrivalQueuesOrOverflows := by
  intro s sig a1 a0 d1 d0 c w l t1 t0 more kind signature duration
  obtain ⟨b, frame, hsig, hage, hdur, hcentre, hwidth, hlevel, htag⟩ :=
    burstReportOf_frame sig a1 a0 d1 d0 c w l t1 t0 more
  have hs : b.signatureOf = some kind := by
    unfold BurstReport.signatureOf
    rw [hsig, htag]
    rcases signature with ⟨rfl, rfl⟩ | ⟨rfl, rfl⟩ | ⟨rfl, rfl⟩ <;> rfl
  have arrival := execReportArrival_of_stamp frame (BurstReport.stamp_of_signature s.now hs (hdur ▸ duration))
  refine ⟨b.stamped s.now kind, by rw [← hage]; rfl, hdur, ?_, ?_, ?_, by rw [← hlevel]; rfl, rfl, fun room => ?_,
    fun full => ?_⟩
  · rw [← hcentre]; simp [BurstReport.stamped, clampNat]
  · simp only [BurstReport.stamped, reportSpan, clampInt, clampNat, hwidth]; omega
  · simp only [BurstReport.stamped, reportSpan, clampInt, clampNat, ceilDiv, hwidth]; omega
  · exact arrival.trans (congrArg _ (if_pos room))
  · exact arrival.trans (congrArg _ (if_neg (not_lt.2 full)))

/-- Settles O6: a discarded frame or report is no report, and a LOCK row acts on a change of the line alone. -/
theorem portLinesAndDiscards : Obligations.PortLinesAndDiscards := by
  refine fun s => ⟨fun _ _ => rfl, fun _ _ => rfl, ?_, rfl, rfl, fun c h => ?_, fun c h => ?_⟩
  · intro sig a1 a0 d1 d0 c w l t1 t0 more h
    obtain ⟨b, frame, hsig, -, hdur, -⟩ := burstReportOf_frame sig a1 a0 d1 d0 c w l t1 t0 more
    refine execReportArrival_of_discard frame (h.imp hdur.trans fun ⟨h1, h2, h3⟩ => ?_)
    rw [BurstReport.signatureOf, hsig, if_neg h1, if_neg h2, if_neg h3]
  · show execLockAsserted c s = _
    rw [execLockAsserted, if_pos h]
  · show execLockDeasserted c s = _
    rw [execLockDeasserted, if_neg (by simp [h])]

/-! ### Handles (R2) -/

section Resolve
variable {t : Table} {v : Nat}

theorem Table.resolve_of_stale (hv : v < 1024) (h : (t.slot (v / 16)).gen.toNat ≠ v % 16) :
    t.resolve v = .refused .stale := by
  have gen : (t.slot (v / 16)).gen ≠ BitVec.ofNat 4 (v % 16) := fun e => h (by rw [e, BitVec.toNat_ofNat]; omega)
  simp only [Table.resolve, if_neg (show ¬ v = 0xFFFF by omega), if_neg (show ¬ 0x0400 ≤ v by omega), if_pos gen]

/-- A handle of the slot's present generation answers by the slot's record. -/
theorem Table.resolve_of_gen (hv : v < 1024) (h : (t.slot (v / 16)).gen.toNat = v % 16) :
    t.resolve v = match t.record (v / 16) with
      | none => .refused .empty
      | some r => if r.state = .retired then .refused .empty else .record (v / 16) r := by
  have gen : (t.slot (v / 16)).gen = BitVec.ofNat 4 (v % 16) := BitVec.eq_of_toNat_eq (by rw [h, BitVec.toNat_ofNat]; omega)
  simp only [Table.resolve, if_neg (show ¬ v = 0xFFFF by omega), if_neg (show ¬ 0x0400 ≤ v by omega), gen, ne_eq,
    not_true_eq_false, if_false]
  rfl

end Resolve

/-- Settles O43: the outcomes are tested in the order of R2. -/
theorem handleResolution : Obligations.HandleResolution := by
  intro t v _
  refine ⟨fun h => by rw [Table.resolve, if_pos h], fun h ne => by rw [Table.resolve, if_neg ne, if_pos h],
    Table.resolve_of_stale, fun hv hg hr => ?_, fun r hv hg hr => ⟨fun hs => ?_, fun hs => ?_⟩⟩
  · rw [Table.resolve_of_gen hv hg, Table.record, hr]
  · rw [Table.resolve_of_gen hv hg, Table.record, hr]; simp [hs]
  · rw [Table.resolve_of_gen hv hg, Table.record, hr]; simp [hs]

end Sys2Proof.Machine
end

section
/-! PROOFS. The control link: the exchanges of a transaction, the written bytes by the phase they fall in, the abort of
a long request, and the requests that read (chapter 9, R144, R182). -/

namespace Sys2Proof.Machine

/-! ### Exchanges (R160 to R163, R168) -/

/-- The bits of the status byte (R163, R208). -/
theorem Standing.byte_eq (x : Standing) : x.byte = (if x.attention then 0x58 else 0x50) + match x.phase with
    | .idle => 0x01
    | .command => 0x05
    | .execution => 0x04
    | .result => 0x07 := by
  obtain ⟨phase, attention⟩ := x
  cases phase <;> cases attention <;> rfl

/-- Settles O35: each exchange follows the type of its transaction, and READ the phase at its start. -/
theorem transactionsAndReads : Obligations.TransactionsAndReads := by
  intro s start shown
  have byte : s.shown.byte = shown := Standing.byte_eq start
  have opened (b : Byte) (h : s.link.transaction = .opened) : execStatusExchange b s = .next
      { s with link := { s.link with miso := some s.shown.byte, begun := none, transaction := transactionOf b } } := by
    rw [execStatusExchange, h]; rfl
  refine ⟨rfl, fun h => ?_, fun b h => ?_, fun b h => ?_, rfl, fun h ne => ?_, fun b h result found => ⟨fun more => ?_,
    fun last => ?_⟩⟩
  · show execSelectAsserted s = _
    rw [execSelectAsserted, h]
  · rw [← byte]; exact opened b h
  · rw [← byte]
    show execStatusExchange b s = _
    rw [execStatusExchange, h]; rfl
  · rw [← byte]
    exact (if_pos h).trans (if_neg ne)
  · rw [← found]
    exact (if_pos h).trans ((if_pos result).trans
      (congrArg (fun k => Host.Outcome.next { s with link := k }) (if_neg (not_le.2 more))))
  · rw [← found]
    exact (if_pos h).trans ((if_pos result).trans
      (congrArg (fun k => Host.Outcome.next { s with link := k }) (if_pos (le_of_eq last.symm))))

/-! ### Request codes (R165, R169) -/

/-- The parameter counts of the assigned codes (12.2). -/
def requestCounts : List (Nat × Nat) := requestTable.map fun r => (r.code.toNat, r.count)

/-- The count of a code is that of its row. -/
theorem requestCounts_lookup (b : Byte) : requestCounts.lookup b.toNat = (requestRow b).map (·.count) := by
  unfold requestCounts requestRow
  induction requestTable with
  | nil => rfl
  | cons r rows ih =>
    rw [List.map_cons, List.lookup_cons, List.find?_cons]
    by_cases h : r.code = b
    · simp [h]
    · have ne : b.toNat ≠ r.code.toNat := fun e => h (BitVec.eq_of_toNat_eq e.symm)
      rw [beq_eq_false_iff_ne.2 ne, beq_eq_false_iff_ne.2 h]
      exact ih

/-- The state after a written byte is taken as a code, with the link otherwise as given. -/
def State.codeTaken (s : State) (b : Byte) (k : Link) : State :=
  { s with link := { k with
    miso := some s.shown.byte, begun := none, code := some b, params := [], consumed := 0 } }

section Code
variable (s : State) {b : Byte}

theorem State.takeCode_of_unassigned (h : requestCounts.lookup b.toNat = none) : s.shiftStatus.takeCode b =
    s.codeTaken b { s.link with phase := .result, expected := 0, result := [0x01] } := by
  rw [requestCounts_lookup, Option.map_eq_none_iff] at h
  rw [State.takeCode, h]; rfl

theorem State.takeCode_of_short (h : requestCounts.lookup b.toNat = some 0) : s.shiftStatus.takeCode b =
    s.codeTaken b { s.link with phase := .execution, expected := 0, result := [], entered := s.now } := by
  rw [requestCounts_lookup, Option.map_eq_some_iff] at h
  obtain ⟨row, hrow, count⟩ := h
  simp only [State.takeCode, hrow, count, if_true]
  rfl

theorem State.takeCode_of_long {n : Nat} (h : requestCounts.lookup b.toNat = some (n + 1)) :
    s.shiftStatus.takeCode b = s.codeTaken b { s.link with phase := .command, expected := n + 1, result := [] } := by
  rw [requestCounts_lookup, Option.map_eq_some_iff] at h
  obtain ⟨row, hrow, count⟩ := h
  simp only [State.takeCode, hrow, count, Nat.succ_ne_zero, if_false]
  rfl

/-- A written byte is handled in the phase it is for (R161). -/
theorem State.written_of_phase {s : State} {ph : Phase} (write : s.link.transaction = .write) (phase : s.link.phase = ph)
    (f : State → State) : s.written ph f = f s.shiftStatus := if_pos ⟨write, phase⟩

end Code

/-- Settles O36: the code's count says which phase follows. -/
theorem requestCodeByItsCount : Obligations.RequestCodeByItsCount := by
  intro s b write counts taken idle
  have handled : exec (.requestCode b) s = .next (s.shiftStatus.takeCode b) :=
    congrArg _ (State.written_of_phase write idle _)
  exact ⟨fun h => handled.trans (congrArg _ (s.takeCode_of_unassigned h)),
    fun h => handled.trans (congrArg _ (s.takeCode_of_short h)),
    fun n h => handled.trans (congrArg _ (s.takeCode_of_long h))⟩

/-- Settles O37: a written byte is a parameter in COMMAND, nothing in a short EXECUTION, and a code in RESULT. -/
theorem writtenBytesByPhase : Obligations.WrittenBytesByPhase := by
  intro s b write counts taken echoed
  refine ⟨fun command => ?_, fun execution notSweep notPreview => ?_, fun result => ?_⟩
  · have handled := fun f => State.written_of_phase write command f
    refine ⟨fun more => congrArg _ ((handled _).trans ?_), fun last => congrArg _ ((handled _).trans ?_)⟩
    · have few : ¬ s.link.expected ≤ (s.link.params ++ [b]).length := by rw [List.length_append]; simpa using more
      exact congrArg (fun k => { s with link := k }) (if_neg few)
    · have enough : s.link.expected ≤ (s.link.params ++ [b]).length := by rw [List.length_append]; simpa using last
      exact congrArg (fun k => { s with link := k }) (if_pos enough)
  · have short : ¬ s.link.longRequest = true := by
      rw [Link.longRequest, Bool.or_eq_true, beq_iff_eq, beq_iff_eq]
      exact not_or.2 ⟨notSweep, notPreview⟩
    exact congrArg _ ((if_neg short).trans (State.written_of_phase write execution _))
  · have handled : exec (.abandon b) s = .next (s.shiftStatus.takeCode b) :=
      congrArg _ (State.written_of_phase write result _)
    exact ⟨fun h => handled.trans (congrArg _ (s.takeCode_of_unassigned h)),
      fun h => handled.trans (congrArg _ (s.takeCode_of_short h)),
      fun n h => handled.trans (congrArg _ (s.takeCode_of_long h))⟩

/-! ### The abort of a long request (R105, R170, R196) -/

/-- The eight handle places of a SWEEP result, byte by byte (12.2). -/
theorem sweepPlaces_eq (found : List (Nat × BitVec 4)) : sweepPlaces found =
    found.flatMap (fun x => [byteOf ((x.1 * 16 + x.2.toNat) / 256), byteOf (x.1 * 16 + x.2.toNat)])
      ++ List.replicate (2 * (8 - found.length)) 0xFF := by
  have blanks (n : Nat) : (List.replicate n noHandle).flatten = List.replicate (2 * n) 0xFF := by
    induction n with
    | zero => rfl
    | succ n ih => rw [List.replicate_succ, List.flatten_cons, ih]; rfl
  have handles : (fun x : Nat × BitVec 4 => handleBytes x.1 x.2)
      = fun x => [byteOf ((x.1 * 16 + x.2.toNat) / 256), byteOf (x.1 * 16 + x.2.toNat)] :=
    funext fun x => bytesOf_two _
  rw [sweepPlaces, blanks, handles, List.flatMap_def]

/-- The arbiter does not act on an engine that is not idle (R88). -/
theorem State.handOver_of_busy {s : State} {client : Client} {n : Snapshot} {f : Finding}
    (h : s.predictor.engine = .evaluating client n f) : s.handOver = s := by
  rw [State.handOver, h]

section Abort
variable {s : State} {b : Byte}

theorem execAbort_of_sweep (write : s.link.transaction = .write) (execution : s.link.phase = .execution)
    (code : s.link.code = some sweepCode) : execAbort b s = .next (State.finish { s.shiftStatus with sweep := none }
      (resultByte .aborted false :: s.shiftStatus.abortedSweepFields)) := by
  rw [execAbort, State.written_of_phase write execution, if_pos (show s.shiftStatus.link.code = _ from code)]

theorem execAbort_of_preview (write : s.link.transaction = .write) (execution : s.link.phase = .execution)
    (code : s.link.code = some previewCode) : execAbort b s = .next (State.handOver (State.answer
      { s.shiftStatus with predictor := s.predictor.withdrawPreview } .aborted)) := by
  have notSweep : s.shiftStatus.link.code ≠ some sweepCode := fun e => absurd (code.symm.trans e) (by decide)
  rw [execAbort, State.written_of_phase write execution, if_neg notSweep,
    if_pos (show s.shiftStatus.link.code = _ from code)]
  rfl

/-- An abandoned evaluation frees the engine (R105). -/
theorem Predictor.withdrawPreview_of_evaluating {p : Predictor} {n : Snapshot} {f : Finding}
    (h : p.engine = .evaluating .preview n f) : p.withdrawPreview = { p with preview := none, engine := .idle } := by
  rw [Predictor.withdrawPreview, h]

/-- Where the engine serves the scheduler, a waiting PREVIEW alone is withdrawn (R105). -/
theorem Predictor.withdrawPreview_of_waiting {p : Predictor} {n : Snapshot} {f : Finding}
    (h : p.engine = .evaluating .scheduler n f) : p.withdrawPreview = { p with preview := none } := by
  rw [Predictor.withdrawPreview, h]

end Abort

/-- Settles O38: an abort ends the sweep with what it found, or withdraws the PREVIEW. -/
theorem abortEndsALongRequest : Obligations.AbortEndsALongRequest := by
  intro s b write execution two ended
  refine ⟨fun w code sweep => (execAbort_of_sweep (b := b) write execution code).trans ?_, fun code waits =>
    ⟨fun n f engine => (execAbort_of_preview (b := b) write execution code).trans ?_,
      fun n f engine => (execAbort_of_preview (b := b) write execution code).trans ?_⟩⟩
  · have fields : s.shiftStatus.abortedSweepFields = sweepFields w.found (byteOf w.next) := by
      show (match s.sweep with | some w => _ | none => _) = _
      rw [sweep]
    rw [fields, sweepFields, sweepPlaces_eq]
    simp only [List.append_assoc]
    rfl
  · rw [Predictor.withdrawPreview_of_evaluating engine]; rfl
  · rw [Predictor.withdrawPreview_of_waiting engine]
    exact congrArg _ (State.handOver_of_busy (client := .scheduler) (n := n) (f := f) engine)

/-! ### Requests that read (R144, R172, R182) -/

theorem bytesOf_three (v : Nat) : bytesOf 3 v = [byteOf (v / 65536), byteOf (v / 256), byteOf v] := by
  simp [bytesOf]

theorem bytesOf_four (v : Nat) :
    bytesOf 4 v = [byteOf (v / 65536 / 256), byteOf (v / 65536), byteOf (v / 256), byteOf v] := by
  simp [bytesOf, Nat.div_div_eq_div_mul]

/-- The domain byte as a sum (12.2). -/
theorem Radio.domainByte_eq (r : Radio) : r.domainByte = byteOf ((match r.domain with | .A => 1 | .B => 2 | .C => 3)
    + 128 * if r.domainLock then 1 else 0) := by
  unfold Radio.domainByte
  cases r.domain <;> cases r.domainLock <;> rfl

/-- The flag byte of the status record as a sum (12.2). -/
theorem State.statusFlags_eq (s : State) : s.statusFlags = byteOf ((if s.intake.blindFlag then 1 else 0)
    + 2 * if s.notices.attention then 1 else 0) := by
  unfold State.statusFlags
  cases s.intake.blindFlag <;> cases s.notices.attention <;> rfl

theorem flagByte_eq (b : Bool) : flagByte b = byteOf (if b then 1 else 0) := by cases b <;> rfl

theorem ChainState.code_eq (x : ChainState) : x.code = byteOf (match x with
    | .unset => 0 | .ready => 1 | .retuning => 2 | .dwell => 3 | .fault => 4) := by cases x <;> rfl

theorem ClockState.code_eq (x : ClockState) : x.code = byteOf (match x with
    | .internalStart => 0 | .reference => 1 | .fallback => 2) := by cases x <;> rfl

theorem RecState.code_eq (x : RecState) : x.code = byteOf (match x with
    | .candidate => 1 | .tracked => 2 | .coasting => 3 | .retired => 4) := by cases x <;> rfl

theorem Record.kindCode_eq (r : Record) : r.kind.code = byteOf (match r.part with
    | .oven _ => 1 | .neighbour _ _ _ => 2 | .steady _ => 3) := by
  unfold Record.kind Part.kind
  cases r.part <;> rfl

/-- Settles O39: each reader ends its request with the record that it reads. -/
theorem readersChangeNothing : Obligations.ReadersChangeNothing := by
  intro s one two three four flag
  refine ⟨fun executing => ?_, fun executing => ?_, fun executing => ⟨fun closed => ?_, fun c r held record => ?_⟩⟩
  · intro clock domain chain counts blind bytes
    refine ⟨?_, rfl⟩
    show execReadStatus s = _
    rw [execReadStatus, executing.request]
    simp only [State.answerOk_eq, State.statusRecord, ClockState.code_eq, bytesOf_four, Radio.domainByte_eq,
      State.statusFlags_eq, ChainRec.statusBytes, ChainState.code_eq, flagByte_eq]
    rfl
  · intro advice bytes
    refine ⟨?_, fun costs => ?_⟩
    · show execReadCosts s = _
      rw [execReadCosts, executing.request]
      simp only [State.answerOk_eq, flagByte_eq]
      rfl
    · simp [bytes, advice, one, costs, List.length_flatMap]
  · show execReadRecord s = _
    rw [execReadRecord, executing.request, closed]; rfl
  · intro g mask state kind part image
    have staged : g.mask = byteOf mask := by
      simp only [Staged.mask, mask, flag, mul_ite, mul_one, mul_zero]
    have flags : r.flagBits = byteOf ((if r.origin = .pinned then 1 else 0) + 2 * flag r.held + 4 * flag r.hitFlag) := by
      simp only [Record.flagBits, flag, mul_ite, mul_one, mul_zero]
    have fields : r.part.imageBytes = part := by
      unfold Part.imageBytes part
      cases r.part <;> simp only [bytesOf_two, bytesOf_three, bytesOf_four, flag, mul_ite, mul_one, mul_zero] <;> rfl
    have bytes : r.image = image := by
      rw [Record.image, r.kindCode_eq, RecState.code_eq, flags, fields]; rfl
    have length : part.length = 12 := by unfold part; cases r.part <;> rfl
    refine ⟨bytes, by simp [image, one, length], ?_⟩
    show execReadRecord s = _
    rw [execReadRecord, executing.request, held, ← bytes]
    simp only [State.answerOk_eq, Table.image, record, handleBytes, bytesOf_two]
    rw [show c.staged.mask = byteOf mask from staged]
    rfl

end Sys2Proof.Machine
end

section
/-! PROOFS. The radio chains: the checks of a move one by one, the requests that place a chain, LOCK, the timers and the
settings (chapter 6). -/

namespace Sys2Proof.Machine

/-! ### Codes and channels of a request (R113, R207) -/

@[simp] theorem chainOf_chainByte (c : Chain) : chainOf (chainByte c) = some c := by cases c <;> rfl

theorem chainOf_eq_none {x : Byte} (h0 : x ≠ 0x00) (h1 : x ≠ 0x01) : chainOf x = none := by
  rw [chainOf, if_neg h0, if_neg h1]

theorem moveChannelOf_of_range {b : Byte} (lo : 1 ≤ b.toNat) (hi : b.toNat ≤ 14) : moveChannelOf b = some b.toNat :=
  if_pos ⟨lo, hi⟩

theorem moveChannelOf_eq_none {b : Byte} (h : b.toNat = 0 ∨ 14 < b.toNat) : moveChannelOf b = none :=
  if_neg (by omega)

theorem Domain.one_le_highest (d : Domain) : 1 ≤ d.highest := by cases d <;> decide

/-! ### The checks (R114) -/

/-- A chain takes a request in UNSET, READY and FAULT. -/
theorem ChainState.takesRequest_iff {x : ChainState} :
    x.takesRequest = true ↔ x = .unset ∨ x = .ready ∨ x = .fault := by
  cases x <;> simp [ChainState.takesRequest]

/-- A chain is busy in RETUNING and DWELL. -/
theorem ChainState.takesRequest_eq_false {x : ChainState} :
    x.takesRequest = false ↔ x = .retuning ∨ x = .dwell := by
  cases x <;> simp [ChainState.takesRequest]

section Check
variable {r : Radio} {c : Chain} {ch : Nat} {coded : Bool}

theorem Radio.check_of_busy (h : (r.chain c).state = .retuning ∨ (r.chain c).state = .dwell) :
    r.check c ch coded = some .busy := if_pos (ChainState.takesRequest_eq_false.2 h)

section Free
variable (free : ¬ ((r.chain c).state = .retuning ∨ (r.chain c).state = .dwell))
include free

theorem Radio.check_of_barred (h : r.domain.highest < ch) : r.check c ch coded = some .notPermitted := by
  rw [Radio.check, if_neg (mt ChainState.takesRequest_eq_false.1 free), if_pos]
  simp [Domain.permits, h]

section Permitted
variable (lo : 1 ≤ ch) (hi : ¬ r.domain.highest < ch)
include lo hi

theorem Radio.check_of_permitted : r.check c ch coded = if (r.chain (otherChain c)).uses ch = true then some .conflict
    else if coded = true ∧ r.tuneCode ch = 0 then some .noTuneCode else none := by
  have permits : ¬ r.domain.permits ch = false := by simp [Domain.permits, lo, not_lt.1 hi]
  rw [Radio.check, if_neg (mt ChainState.takesRequest_eq_false.1 free), if_neg permits]

theorem Radio.check_of_conflict (h : (r.chain (otherChain c)).present = some ch
    ∨ (r.chain (otherChain c)).target = some ch) : r.check c ch coded = some .conflict := by
  rw [Radio.check_of_permitted free lo hi, if_pos (ChainRec.uses_iff.2 (ChainRec.mem_channels.2 h))]

variable (apart : ¬ ((r.chain (otherChain c)).present = some ch ∨ (r.chain (otherChain c)).target = some ch))
include apart

theorem Radio.check_of_uncoded (h : r.tuneCode ch = 0) : r.check c ch true = some .noTuneCode := by
  rw [Radio.check_of_permitted free lo hi, if_neg (fun u => apart (ChainRec.mem_channels.1 (ChainRec.uses_iff.1 u))),
    if_pos ⟨rfl, h⟩]

/-- The first three checks are passed, and the fourth where it is asked for. -/
theorem Radio.check_of_passes (h : coded = true → r.tuneCode ch ≠ 0) : r.check c ch coded = none := by
  rw [Radio.check_of_permitted free lo hi, if_neg (fun u => apart (ChainRec.mem_channels.1 (ChainRec.uses_iff.1 u))),
    if_neg (fun u => h u.1 u.2)]

end Permitted
end Free

/-- A chain in a state that takes requests is in no move. -/
theorem ChainState.free_of {x : ChainState} (h : x = .unset ∨ x = .ready ∨ x = .fault) :
    ¬ (x = .retuning ∨ x = .dwell) := by
  rcases h with rfl | rfl | rfl <;> simp

/-- What an automatic move waits as has no part in the checks. -/
theorem Radio.check_setHanded (handed : Option Nat) :
    (r.setChain c { r.chain c with handed := handed }).check c ch coded = r.check c ch coded := by
  cases c <;> rfl

end Check

/-! ### MOVE, SET CHANNEL and the automatic move -/

section Requests
variable {s : State} {c : Chain} {b : Byte}

theorem execMove_of_refused {r : Result} (h : s.Executing 0x20 [chainByte c, b]) (lo : 1 ≤ b.toNat) (hi : b.toNat ≤ 14)
    (refused : s.radio.check c b.toNat true = some r) : execMove s = .next (s.finish [r.code]) := by
  simp only [execMove, h.request, chainOf_chainByte, moveChannelOf_of_range lo hi, refused, State.answer_eq]

theorem execMove_of_passes (h : s.Executing 0x20 [chainByte c, b]) (lo : 1 ≤ b.toNat) (hi : b.toNat ≤ 14)
    (passes : s.radio.check c b.toNat true = none) :
    execMove s = .next ((s.startMove c b.toNat .control).finish [0x00]) := by
  simp only [execMove, h.request, chainOf_chainByte, moveChannelOf_of_range lo hi, passes]; rfl

theorem execMove_of_invalid {x y : Byte} (h : s.Executing 0x20 [x, y])
    (invalid : (x ≠ 0x00 ∧ x ≠ 0x01) ∨ y.toNat = 0 ∨ 14 < y.toNat) : execMove s = .next (s.finish [0x01]) := by
  rw [execMove, h.request]
  rcases invalid with ⟨h0, h1⟩ | channel
  · simp only [chainOf_eq_none h0 h1]; rfl
  · simp only [moveChannelOf_eq_none channel]
    cases chainOf x <;> rfl

theorem execSetChannel_of_refused {r : Result} (h : s.Executing 0x22 [chainByte c, b]) (lo : 1 ≤ b.toNat)
    (hi : b.toNat ≤ 14) (refused : s.radio.check c b.toNat false = some r) :
    execSetChannel s = .next (s.finish [r.code]) := by
  simp only [execSetChannel, h.request, chainOf_chainByte, moveChannelOf_of_range lo hi, refused, State.answer_eq]

theorem execSetChannel_of_passes (h : s.Executing 0x22 [chainByte c, b]) (lo : 1 ≤ b.toNat) (hi : b.toNat ≤ 14)
    (passes : s.radio.check c b.toNat false = none) : execSetChannel s = .next ((s.setChain c { s.chain c with
      state := .ready, present := some b.toNat, holdOff := 0, origin := .control }).finish [0x00]) := by
  simp only [execSetChannel, h.request, chainOf_chainByte, moveChannelOf_of_range lo hi, passes]; rfl

theorem execSetChannel_of_invalid {x y : Byte} (h : s.Executing 0x22 [x, y])
    (invalid : (x ≠ 0x00 ∧ x ≠ 0x01) ∨ y.toNat = 0 ∨ 14 < y.toNat) : execSetChannel s = .next (s.finish [0x01]) := by
  rw [execSetChannel, h.request]
  rcases invalid with ⟨h0, h1⟩ | channel
  · simp only [chainOf_eq_none h0 h1]; rfl
  · simp only [moveChannelOf_eq_none channel]
    cases chainOf x <;> rfl

section Automatic
variable {ch : Nat} (handed : (s.chain c).handed = some ch)
include handed

theorem execAutomaticMove_of_refused {r : Result} (refused : s.radio.check c ch true = some r) :
    execAutomaticMove c s = .next (s.setChain c { s.chain c with handed := none }) := by
  have check : (s.setChain c { s.chain c with handed := none }).radio.check c ch true = some r :=
    (Radio.check_setHanded none).trans refused
  simp only [execAutomaticMove, handed, check]

theorem execAutomaticMove_of_passes (passes : s.radio.check c ch true = none) : execAutomaticMove c s =
    .next ((s.setChain c { s.chain c with handed := none }).startMove c ch .advisor) := by
  have check : (s.setChain c { s.chain c with handed := none }).radio.check c ch true = none :=
    (Radio.check_setHanded none).trans passes
  simp only [execAutomaticMove, handed, check]

end Automatic

/-! ### STEP (R116) -/

/-- The step of a STEP, clamped. -/
def stepOf (y : Byte) : Int := max (-13) (min 13 y.toInt)

/-- The target of a STEP from a present channel. -/
def Domain.stepTarget (d : Domain) (p : Nat) (y : Byte) : Int := max 1 (min (d.highest : Int) (p + stepOf y))

/-- The first result byte of a STEP that is OK. -/
def Domain.stepByte (d : Domain) (p : Nat) (y : Byte) : Byte :=
  if y.toInt = stepOf y ∧ p + stepOf y = d.stepTarget p y then 0x00 else 0x80

theorem Domain.stepTarget_range {d : Domain} {p ch : Nat} {y : Byte} (h : d.stepTarget p y = ch) :
    1 ≤ ch ∧ ¬ d.highest < ch := by
  have := d.one_le_highest
  unfold Domain.stepTarget at h
  omega

/-- The clamped flag of a STEP notes each clamp. -/
theorem Domain.stepByte_eq (d : Domain) (p : Nat) (y : Byte) :
    resultByte .ok (y.toInt != stepOf y || (p : Int) + stepOf y != d.stepTarget p y) = d.stepByte p y := by
  unfold Domain.stepByte
  by_cases h1 : y.toInt = stepOf y <;> by_cases h2 : (p : Int) + stepOf y = d.stepTarget p y <;>
    simp [resultByte, Result.code, h1, h2]

theorem execStep_of_invalid {x y : Byte} (h : s.Executing 0x21 [x, y]) (h0 : x ≠ 0x00) (h1 : x ≠ 0x01) :
    execStep s = .next (s.finish [0x01, 0x00]) := by
  simp only [execStep, h.request, chainOf_eq_none h0 h1]; rfl

section Step
variable (h : s.Executing 0x21 [chainByte c, b])
include h

theorem execStep_of_busy (busy : (s.chain c).state = .retuning ∨ (s.chain c).state = .dwell) :
    execStep s = .next (s.finish [0x02, 0x00]) := by
  simp only [execStep, h.request, chainOf_chainByte, ChainState.takesRequest_eq_false.2 busy, if_true]; rfl

variable (free : ¬ ((s.chain c).state = .retuning ∨ (s.chain c).state = .dwell))
include free

theorem execStep_of_absent (absent : (s.chain c).present = none) : execStep s = .next (s.finish [0x08, 0x00]) := by
  simp only [execStep, h.request, chainOf_chainByte, if_neg (mt ChainState.takesRequest_eq_false.1 free), absent]; rfl

variable {p ch : Nat} (present : (s.chain c).present = some p) (target : s.radio.domain.stepTarget p b = ch)
include present target

theorem execStep_of_present : execStep s = if ch = p then
      .next (s.finish [s.radio.domain.stepByte p b, BitVec.ofNat 8 ch])
    else match s.radio.check c ch true with
      | some r => .next (s.answerStep r false (some ch))
      | none => .next ((s.startMove c ch .control).finish [s.radio.domain.stepByte p b, BitVec.ofNat 8 ch]) := by
  have nat : (s.radio.domain.stepTarget p b).toNat = ch := by rw [target]; rfl
  rw [← Domain.stepByte_eq, ← nat]
  simp only [execStep, h.request, chainOf_chainByte, if_neg (mt ChainState.takesRequest_eq_false.1 free), present]
  rfl

theorem execStep_of_stays (stays : ch = p) :
    execStep s = .next (s.finish [s.radio.domain.stepByte p b, BitVec.ofNat 8 ch]) := by
  rw [execStep_of_present h free present target, if_pos stays]

theorem execStep_of_refused {r : Result} (away : ch ≠ p) (refused : s.radio.check c ch true = some r) :
    execStep s = .next (s.finish [r.code, BitVec.ofNat 8 ch]) := by
  rw [execStep_of_present h free present target, if_neg away, refused]; rfl

theorem execStep_of_passes (away : ch ≠ p) (passes : s.radio.check c ch true = none) : execStep s = .next
    ((s.startMove c ch .control).finish [s.radio.domain.stepByte p b, BitVec.ofNat 8 ch]) := by
  rw [execStep_of_present h free present target, if_neg away, passes]

end Step
end Requests

/-- Settles O20: what passes the checks starts the move. -/
theorem movesStart : Obligations.MovesStart := by
  refine ⟨fun s c b p executing notRetuning notDwell present stays => ?_, fun s c ch lo hi state noPresent noTarget coded => ?_⟩
  · exact execStep_of_stays executing (by simp [notRetuning, notDwell]) present stays rfl
  · have free := ChainState.free_of state
    have passes : s.radio.check c ch true = none := Radio.check_of_passes free lo (not_lt.2 hi)
      (not_or.2 ⟨noPresent, noTarget⟩) fun _ => coded
    refine ⟨fun b executing channel => ?_, fun b p executing present stepped => ?_, fun handed => ?_⟩
    · subst channel
      exact execMove_of_passes executing lo (hi.trans s.radio.domain.highest_le) passes
    · by_cases stays : ch = p
      · rw [if_pos stays]
        exact execStep_of_stays executing free present stepped stays
      · rw [if_neg stays]
        exact execStep_of_passes executing free present stepped stays passes
    · refine (execAutomaticMove_of_passes handed passes).trans (congrArg _ ?_)
      cases c <;> rfl

/-- Settles O21: the checks are made in the order of R114. -/
theorem moveChecksInOrder : Obligations.MoveChecksInOrder := by
  intro s c b lo hi busy barred conflict uncoded
  refine ⟨fun executing => ?_, fun executing => ?_, fun y executing => ?_, fun handed refused => ?_,
    fun x y executing => execMove_of_invalid executing, fun x y executing => execSetChannel_of_invalid executing,
    fun x y executing => execStep_of_invalid executing⟩
  · have refusal := fun r => execMove_of_refused (r := r) executing lo hi
    exact ⟨fun h => refusal _ (Radio.check_of_busy h), fun free h => refusal _ (Radio.check_of_barred free h),
      fun free permitted h => refusal _ (Radio.check_of_conflict free lo permitted h),
      fun free permitted apart h => refusal _ (Radio.check_of_uncoded free lo permitted apart h)⟩
  · have refusal := fun r => execSetChannel_of_refused (r := r) executing lo hi
    exact ⟨fun h => refusal _ (Radio.check_of_busy h), fun free h => refusal _ (Radio.check_of_barred free h),
      fun free permitted h => refusal _ (Radio.check_of_conflict free lo permitted h)⟩
  · refine ⟨execStep_of_busy executing, execStep_of_absent executing, fun p ch free present away target => ?_⟩
    obtain ⟨low, permitted⟩ := Domain.stepTarget_range target.symm
    have refusal := fun r => execStep_of_refused (r := r) executing free present target.symm away
    exact ⟨fun h => refusal _ (Radio.check_of_conflict free low permitted h),
      fun apart h => refusal _ (Radio.check_of_uncoded free low permitted apart h)⟩
  · have check : ∃ r, s.radio.check c b.toNat true = some r := by
      by_contra none
      obtain ⟨takes, permits, apart, coded⟩ := Radio.check_eq_none (Option.eq_none_iff_forall_ne_some.2 fun r e =>
        none ⟨r, e⟩)
      have permits : b.toNat ≤ s.radio.domain.highest := by
        rw [Domain.permits, Bool.and_eq_true] at permits
        exact of_decide_eq_true permits.2
      rcases refused with h | h | h | h
      · exact ChainState.free_of (ChainState.takesRequest_iff.1 takes) h
      · exact absurd permits (not_le.2 h)
      · exact apart (ChainRec.mem_channels.2 h)
      · exact coded rfl h
    obtain ⟨r, check⟩ := check
    exact execAutomaticMove_of_refused handed check

/-! ### ABORT MOVE and LOCK (R119, R122, R123, R125) -/

section Acts
variable (s : State) (c : Chain)

/-- A level of LOCK and a later change of the chain make one change of the chain. -/
theorem State.setChain_setLock (level : Bool) (x : ChainRec) : (s.setLock c level).setChain c x = s.setChain c x := by
  simp only [State.setLock, State.setChain, Radio.setChain_setChain]

theorem State.setChain_setChain (x y : ChainRec) : (s.setChain c x).setChain c y = s.setChain c y := by
  simp only [State.setChain, Radio.setChain_setChain]

theorem State.chain_setLock (level : Bool) : (s.setLock c level).chain c = { s.chain c with lockIn := level } := by
  simp [State.setLock]

variable {s c}

/-- The completing lock starts the dwell (R119). -/
theorem State.lockCompletes_of_dwell (dwell : s.params.dwellTime ≠ 0) : s.lockCompletes c = s.setChain c
    { s.chain c with lockTimer := none, present := (s.chain c).target, target := none, state := .dwell,
                     dwellTimer := some (s.expiryAfter (s.params.dwellTime * 1000)) } := if_neg dwell

/-- Without a dwell the completing lock completes the move (R119). -/
theorem State.lockCompletes_of_no_dwell (dwell : s.params.dwellTime = 0) : s.lockCompletes c = (s.setChain c
    { s.chain c with lockTimer := none, present := (s.chain c).target, target := none }).completeMove c false :=
  if_pos dwell

theorem execLockAsserted_of_retuning (low : (s.chain c).lockIn = false) (state : (s.chain c).state = .retuning) :
    execLockAsserted c s = .next ((s.setLock c true).lockCompletes c) := by
  rw [execLockAsserted, if_neg (by simp [low]), state]

theorem execLockAsserted_of_other (low : (s.chain c).lockIn = false) (state : (s.chain c).state ≠ .retuning) :
    execLockAsserted c s = .next (s.setLock c true) := by
  rw [execLockAsserted, if_neg (by simp [low])]
  cases hs : (s.chain c).state with
  | retuning => exact absurd hs state
  | unset => rfl
  | ready => rfl
  | dwell => rfl
  | fault => rfl

theorem execLockDeasserted_of_locked (high : (s.chain c).lockIn = true)
    (state : (s.chain c).state = .ready ∨ (s.chain c).state = .dwell) :
    execLockDeasserted c s = .next ((s.setLock c false).failMove c .lockLost) := by
  rw [execLockDeasserted, if_pos high]
  rcases state with h | h <;> rw [h]

theorem execLockDeasserted_of_other (high : (s.chain c).lockIn = true)
    (state : (s.chain c).state = .unset ∨ (s.chain c).state = .retuning ∨ (s.chain c).state = .fault) :
    execLockDeasserted c s = .next (s.setLock c false) := by
  rw [execLockDeasserted, if_pos high]
  rcases state with h | h | h <;> rw [h]

end Acts

/-- Settles O22: SET CHANNEL places what passes, ABORT MOVE acts by the state. -/
theorem setChannelAndAbortMove : Obligations.SetChannelAndAbortMove := by
  intro s c
  refine ⟨fun b executing lo hi state noPresent noTarget => ?_, fun executing => ⟨fun h => ?_, fun h => ?_, fun h => ?_⟩,
    fun x executing h0 h1 => ?_⟩
  · exact execSetChannel_of_passes executing lo (hi.trans s.radio.domain.highest_le)
      (Radio.check_of_passes (ChainState.free_of state) lo (not_lt.2 hi) (not_or.2 ⟨noPresent, noTarget⟩) nofun)
  all_goals show execAbortMove s = _; rw [execAbortMove, executing.request]
  · simp only [chainOf_chainByte, h]; rfl
  · simp only [chainOf_chainByte, h]; rfl
  · rcases h with h | h | h <;> simp only [chainOf_chainByte, h] <;> rfl
  · simp only [chainOf_eq_none h0 h1]; rfl

/-- Settles O23: a change of the line is acted on by the state. -/
theorem lockActsByState : Obligations.LockActsByState := by
  intro s c x
  refine ⟨fun low state dwell => ?_, fun low state dwell => ?_, fun low state => ?_, fun high state => ?_,
    fun high state => ?_⟩
  · refine (execLockAsserted_of_retuning low state).trans (congrArg _ ?_)
    rw [State.lockCompletes_of_dwell (s := s.setLock c true) dwell, State.setChain_setLock, State.chain_setLock]
    rfl
  · refine (execLockAsserted_of_retuning low state).trans (congrArg _ ?_)
    rw [State.lockCompletes_of_no_dwell (s := s.setLock c true) dwell, State.setChain_setLock, State.chain_setLock, State.completeMove,
      State.chain_setChain, State.setChain_setChain]
  · exact execLockAsserted_of_other low state
  · refine (execLockDeasserted_of_locked high state).trans (congrArg _ ?_)
    rw [State.failMove, State.setChain_setLock, State.chain_setLock]
  · exact execLockDeasserted_of_other high state

/-! ### The timers (R120, R121, R126) -/

/-- Time that passes to an instant ahead ends there (R146). -/
theorem State.later_time {s : State} {e : Time} (h : 0 ≤ (e - s.now).toInt) :
    (s.timebase.later (s.ahead e)).time = e := by
  have ahead : BitVec.ofNat 32 (s.ahead e) = e - s.now := by
    rw [State.ahead, max_eq_right h]
    apply BitVec.eq_of_toInt_eq
    rw [← BitVec.ofInt_natCast, Int.toNat_of_nonneg h, BitVec.ofInt_toInt]
  show s.timebase.time + _ = e
  rw [ahead]
  show s.timebase.time + (e - s.timebase.time) = e
  rw [BitVec.add_comm, BitVec.sub_add_cancel]

section Expiry
variable {s : State} {c : Chain} {e : Time}

theorem execLockTimerExpiry_of_running (state : (s.chain c).state = .retuning) (timer : (s.chain c).lockTimer = some e) :
    execLockTimerExpiry c s = .next (s.atInstant (s.ahead e) (fun s => s.failMove c .noLock)) := by
  rw [execLockTimerExpiry, state, timer, ← s.remaining_eq_ahead]

theorem execDwellTimerExpiry_of_running (state : (s.chain c).state = .dwell) (timer : (s.chain c).dwellTimer = some e) :
    execDwellTimerExpiry c s = .next (s.atInstant (s.ahead e) (fun s => s.completeMove c false)) := by
  rw [execDwellTimerExpiry, state, timer, ← s.remaining_eq_ahead]

end Expiry

/-- Settles O24: each timer does its work at its instant, and no sooner. -/
theorem chainTimersExpire : Obligations.ChainTimersExpire := by
  intro s c e epoch x n
  refine ⟨State.later_time, fun state timer => ⟨fun early => ?_, fun reached => ?_⟩,
    fun state timer => ⟨fun early => ?_, fun reached => ?_⟩⟩
  · exact (execLockTimerExpiry_of_running state timer).trans
      (congrArg _ (State.atInstant_not_reached _ epoch early))
  · exact (execLockTimerExpiry_of_running state timer).trans (congrArg _ (State.atInstant_reached _ epoch reached))
  · exact (execDwellTimerExpiry_of_running state timer).trans
      (congrArg _ (State.atInstant_not_reached _ epoch early))
  · exact (execDwellTimerExpiry_of_running state timer).trans (congrArg _ (State.atInstant_reached _ epoch reached))

/-! ### Settings (R110, R112, R128) -/

theorem domainOf_code (d : Domain) : domainOf d.code = some d := by cases d <;> rfl

theorem domainOf_eq_none {b : Byte} (h1 : b ≠ 0x01) (h2 : b ≠ 0x02) (h3 : b ≠ 0x03) : domainOf b = none := by
  rw [domainOf, if_neg h1, if_neg h2, if_neg h3]

theorem onOffOf_eq_none {x : Byte} (h0 : x ≠ 0x00) (h1 : x ≠ 0x01) : onOffOf x = none := by
  rw [onOffOf, if_neg h0, if_neg h1]

/-- A channel is in use where a chain has it as its present or its target channel. -/
theorem State.uses_iff (s : State) (ch : Nat) : (s.radio.chainA.uses ch || s.radio.chainB.uses ch) = true ↔
    ∃ c, (s.chain c).present = some ch ∨ (s.chain c).target = some ch := by
  rw [Bool.or_eq_true, ChainRec.uses_iff, ChainRec.uses_iff, ChainRec.mem_channels, ChainRec.mem_channels]
  refine ⟨fun h => h.elim (⟨.A, ·⟩) (⟨.B, ·⟩), fun ⟨c, h⟩ => ?_⟩
  cases c with
  | A => exact .inl h
  | B => exact .inr h

/-- The tune code of a channel is written (R110). -/
def State.withTuneCode (s : State) (ch code : Nat) : State :=
  { s with radio := { s.radio with tuneMap := s.radio.tuneMap.set (ch - 1) (BitVec.ofNat 12 code) } }

section SetTuneCode
variable {s : State} {channel hi lo : Byte} (h : s.Executing 0x13 [channel, hi, lo])
include h

theorem execSetTuneCode_of_invalid (invalid : channel.toNat = 0 ∨ 14 < channel.toNat) :
    execSetTuneCode s = .next (s.finish [0x01]) := by
  simp only [execSetTuneCode, h.request, moveChannelOf_eq_none invalid]; rfl

variable (low : 1 ≤ channel.toNat) (high : channel.toNat ≤ 14)
include low high

theorem execSetTuneCode_of_inUse (clears : hi.toNat * 256 + lo.toNat = 0)
    (inUse : ∃ c, (s.chain c).present = some channel.toNat ∨ (s.chain c).target = some channel.toNat) :
    execSetTuneCode s = .next (s.finish [0x08]) := by
  simp only [execSetTuneCode, h.request, moveChannelOf_of_range low high, valueOf_pair]
  rw [if_pos ⟨clears, (s.uses_iff _).2 inUse⟩]; rfl

theorem execSetTuneCode_of_writes (writes : hi.toNat * 256 + lo.toNat ≠ 0
      ∨ ¬ ∃ c, (s.chain c).present = some channel.toNat ∨ (s.chain c).target = some channel.toNat) :
    execSetTuneCode s = .next ((s.withTuneCode channel.toNat (min 4095 (hi.toNat * 256 + lo.toNat))).finish
      ((if 4095 < hi.toNat * 256 + lo.toNat then 0x80 else 0x00)
        :: bytesOf 2 (min 4095 (hi.toNat * 256 + lo.toNat)))) := by
  simp only [execSetTuneCode, h.request, moveChannelOf_of_range low high, valueOf_pair, State.answerOk_eq,
    decide_eq_true_eq]
  exact if_neg (fun both => writes.elim (· both.1) (· ((s.uses_iff _).1 both.2)))

end SetTuneCode

/-- Settles O25: each setting is made, or refused, by its checks. -/
theorem chainSettings : Obligations.ChainSettings := by
  intro s
  refine ⟨fun b executing => ⟨fun d code unlocked => ?_, fun code locked => ?_, fun h1 h2 h3 => ?_⟩,
    fun c => ⟨fun executing => ?_, fun executing => ?_⟩, fun x y executing invalid => ?_,
    fun ch hi lo executing => execSetTuneCode_of_invalid executing,
    fun ch hi lo executing low high => ⟨execSetTuneCode_of_inUse executing low high, fun writes =>
      ⟨_, execSetTuneCode_of_writes executing low high writes, rfl, rfl, rfl⟩⟩⟩
  · show execSetDomain s = _
    simp only [execSetDomain, executing.request, code, domainOf_code, unlocked]; rfl
  · show execSetDomain s = _
    rcases code with rfl | rfl | rfl <;> simp only [execSetDomain, executing.request, domainOf, locked] <;> rfl
  · show execSetDomain s = _
    simp only [execSetDomain, executing.request, domainOf_eq_none h1 h2 h3]; rfl
  · show execSetAuto s = _
    simp only [execSetAuto, executing.request, chainOf_chainByte]; rfl
  · show execSetAuto s = _
    simp only [execSetAuto, executing.request, chainOf_chainByte]; rfl
  · show execSetAuto s = _
    rw [execSetAuto, executing.request]
    rcases invalid with ⟨h0, h1⟩ | ⟨h0, h1⟩
    · simp only [chainOf_eq_none h0 h1]; rfl
    · simp only [onOffOf_eq_none h0 h1]
      cases chainOf x <;> rfl

end Sys2Proof.Machine
end

section
/-! PROOFS. The events of the reference clock, the boundary's turn of the timebase, the intake and the chains, and what
it does to a part (chapter 8, R36, R65, R74, R127). -/

namespace Sys2Proof.Machine

/-! ### The reference (R149 to R153) -/

section Reference
variable {s : State}

theorem execReferenceLoss_of_reference (present : s.timebase.refPresent = true) (clock : s.timebase.clock = .reference) :
    execReferenceLoss s = .next (State.raise { s with timebase :=
      { s.timebase with refPresent := false, qual := .idle, clock := .fallback } } .clockFallback .none .none) := by
  rw [execReferenceLoss, if_pos present, clock]

theorem execReferenceLoss_of_other (present : s.timebase.refPresent = true) (clock : s.timebase.clock ≠ .reference) :
    execReferenceLoss s = .next { s with timebase := { s.timebase with refPresent := false, qual := .idle } } := by
  rw [execReferenceLoss, if_pos present]
  cases h : s.timebase.clock with
  | reference => exact absurd h clock
  | internalStart => rfl
  | fallback => rfl

theorem execQualificationExpiry_of_qualifying {e : Time} (h : s.timebase.qual = .qualifying e) :
    execQualificationExpiry s = .next (s.atInstant (s.ahead e) State.qualify) := by
  rw [execQualificationExpiry, h, ← s.remaining_eq_ahead]

/-- A qualification says so in FALLBACK alone (R153). -/
theorem State.qualify_eq (s : State) : s.qualify = if s.timebase.clock = .fallback then
      State.raise { s with timebase := s.timebase.qualified } .referencePresent .none .none
    else { s with timebase := s.timebase.qualified } := by
  unfold State.qualify Timebase.qualified
  dsimp only
  cases s.timebase.clock <;> simp

end Reference

/-- Settles O27: the input and the clock state decide what each event does. -/
theorem referenceEvents : Obligations.ReferenceEvents := by
  intro s
  refine ⟨fun present => ⟨execReferenceLoss_of_reference present, execReferenceLoss_of_other present⟩,
    fun absent => ?_, fun absent => ?_, fun present => ?_, fun e qual epoch => ⟨State.later_time, fun early => ?_,
      fun reached => ?_⟩⟩
  · show execReferenceReturn s = _
    rw [execReferenceReturn, if_neg (by simp [absent])]; rfl
  · show execReferenceLoss s = _
    rw [execReferenceLoss, if_neg (by simp [absent])]
  · show execReferenceReturn s = _
    rw [execReferenceReturn, if_pos present]
  · exact (execQualificationExpiry_of_qualifying qual).trans
      (congrArg _ (State.atInstant_not_reached _ epoch early))
  · exact (execQualificationExpiry_of_qualifying qual).trans
      (congrArg _ ((State.atInstant_reached _ epoch reached).trans (State.qualify_eq _)))

/-! ### The boundary of the timebase, the intake and the chains (R36, R127, R147) -/

/-- The state at an instant `n` microseconds later, before its work. -/
def State.after (s : State) (n : Nat) : State := { s with timebase := s.timebase.later n }

section Boundary
variable {s : State} (epoch : s.timebase.epochTimer < 100000)
include epoch

theorem execEpochBoundary_of_reached (reached : s.Reaches s.timebase.untilBoundary) :
    execEpochBoundary s = .next (s.after s.timebase.untilBoundary).boundaryWork :=
  congrArg _ (State.atInstant_reached _ epoch reached)

/-- The epoch timer restarts at a boundary that is reached, and no mid-epoch is passed. -/
theorem Timebase.later_untilBoundary : s.timebase.later s.timebase.untilBoundary = { s.timebase with
    time := s.now + BitVec.ofNat 32 s.timebase.untilBoundary
    epochTimer := if s.timebase.boundaryDue then s.timebase.epochTimer else 0
    boundaryDue := true } := by
  unfold Timebase.later Timebase.untilBoundary epochLength
  cases due : s.timebase.boundaryDue with
  | true =>
    have mid : ¬ (s.timebase.epochTimer < 50000 ∧ s.timebase.epochTimer = 50000) := by omega
    simp only [if_true, Bool.true_or, Nat.add_zero, mid, decide_false, Bool.or_false, Nat.mod_eq_of_lt epoch]
    rfl
  | false =>
    have whole : s.timebase.epochTimer + (100000 - s.timebase.epochTimer) = 100000 := by omega
    simp [whole]
    rfl

end Boundary

theorem State.boundaryWork_chain (s : State) (c : Chain) : s.boundaryWork.chain c = (s.chain c).countEpoch := by
  obtain ⟨ns, e⟩ := s.boundaryWork_frame
  rw [e]
  cases c <;> rfl

/-- Blindness through the next epoch becomes blindness through the current one, and any other ends (R36). -/
theorem Intake.turnOver_eq (k : Intake) : k.turnOver = { k with
    blindThrough := if k.blindThrough = .next then .current else .none, notReadySeen := !k.detectorReady } := by
  unfold Intake.turnOver
  cases k.blindThrough <;> rfl

/-- Settles O15: a boundary that is reached does its work on each block, and no other happens. -/
theorem boundaryTurnsEveryBlockOver : Obligations.BoundaryTurnsEveryBlockOver := by
  intro s epoch n
  refine ⟨fun early => congrArg _ (State.atInstant_not_reached _ epoch early), fun reached =>
    ⟨_, execEpochBoundary_of_reached epoch reached, ?_, ?_, fun c => State.boundaryWork_chain _ c, ?_⟩⟩
  · rw [State.boundaryWork_timebase, State.after, Timebase.later_untilBoundary epoch]
    rfl
  · obtain ⟨ns, e⟩ := (s.after s.timebase.untilBoundary).boundaryWork_frame
    rw [e]
    exact Intake.turnOver_eq _
  · obtain ⟨ns, e⟩ := (s.after s.timebase.untilBoundary).boundaryWork_frame
    rw [e]
    exact ⟨rfl, rfl, rfl, Table.mapSlots_seqCounter _ _, rfl⟩

/-! ### The parts at a boundary (R65, R66, R74) -/

theorem toInt_ofNat36 {d : Nat} (h : d < 2 ^ 35) : (BitVec.ofNat 36 d).toInt = d := by
  rw [BitVec.toInt_eq_toNat_cond, BitVec.toNat_ofNat, Nat.mod_eq_of_lt (by omega), if_pos (by omega)]

/-- The last predicted start at or before a boundary lies whole periods after the anchor (R65). -/
theorem rebasedAnchor_of_ahead {a16 now16 : Time16} {p16 : Nat} (lo : 0 < p16) (hi : p16 ≤ 336000)
    (ahead : 0 ≤ (now16 - a16).toInt) : ∃ m : Nat, rebasedAnchor a16 p16 now16 = a16 + BitVec.ofNat 36 (m * p16)
      ∧ 0 ≤ (now16 - rebasedAnchor a16 p16 now16).toInt ∧ (now16 - rebasedAnchor a16 p16 now16).toInt < p16 := by
  obtain ⟨d, hd⟩ := Int.eq_ofNat_of_zero_le ahead
  have small : d < 2 ^ 35 := by
    have := BitVec.toInt_lt (x := now16 - a16)
    omega
  have anchor : rebasedAnchor a16 p16 now16 = a16 + BitVec.ofNat 36 (d / p16 * p16) := by
    have quotient : diff16 now16 a16 / p16 = ((d / p16 : Nat) : Int) := by rw [diff16, hd]; exact (Int.natCast_div ..).symm
    unfold rebasedAnchor
    dsimp only
    rw [quotient]
    split
    · rw [← Nat.cast_mul, BitVec.ofInt_natCast]
    · next none =>
      have zero : d / p16 = 0 := by rwa [← Nat.cast_one, Nat.cast_le, Nat.not_le, Nat.lt_one_iff] at none
      rw [zero]; simp
  have rest : now16 - rebasedAnchor a16 p16 now16 = BitVec.ofNat 36 (d % p16) := by
    have whole : now16 - a16 = BitVec.ofNat 36 d := BitVec.eq_of_toInt_eq (by rw [hd, toInt_ofNat36 small])
    have split : BitVec.ofNat 36 d = BitVec.ofNat 36 (d / p16 * p16) + BitVec.ofNat 36 (d % p16) := by
      rw [← BitVec.ofNat_add, Nat.div_add_mod']
    calc now16 - rebasedAnchor a16 p16 now16 = now16 - a16 - BitVec.ofNat 36 (d / p16 * p16) := by rw [anchor]; ring
      _ = BitVec.ofNat 36 (d % p16) := by rw [whole, split]; ring
  have below : d % p16 < p16 := Nat.mod_lt _ lo
  have value : (BitVec.ofNat 36 (d % p16)).toInt = (d % p16 : Nat) := toInt_ofNat36 (by omega)
  refine ⟨d / p16, anchor, ?_, ?_⟩ <;> rw [rest, value]
  · exact Int.natCast_nonneg _
  · exact Int.ofNat_lt.2 below

/-- An anchor ahead of the boundary stays (R65). -/
theorem rebasedAnchor_of_past {a16 now16 : Time16} {p16 : Nat} (past : (now16 - a16).toInt < 0) :
    rebasedAnchor a16 p16 now16 = a16 := by
  have : diff16 now16 a16 / p16 ≤ 0 := by
    rcases Nat.eq_zero_or_pos p16 with rfl | pos
    · simp
    · exact Int.ediv_nonpos_of_nonpos_of_neg past.le (Int.natCast_pos.2 pos)
  unfold rebasedAnchor
  exact if_neg (by omega)

/-- The share moves an eighth of the way to the sample (R74). -/
theorem Airtime.closed_share {a : Airtime} (law : a.Lawful) :
    (a.closed.share : Int) = a.share + roundDiv ((min 255 (a.acc * 256 / 100000) : Nat) - a.share : Int) 8
      ∧ min a.share (min 255 (a.acc * 256 / 100000)) ≤ a.closed.share
      ∧ a.closed.share ≤ max a.share (min 255 (a.acc * 256 / 100000)) := by
  simp only [Airtime.closed, accLimit, roundDiv]
  omega

/-- Settles O17: the rebase goes by whole periods, and the share by an eighth. -/
theorem boundaryClosesParts : Obligations.BoundaryClosesParts := by
  refine ⟨fun o now16 known phase => ?_, fun o now16 unknown => ?_, fun a now16 law => ?_⟩
  · have rebased (a16 : Time16) (h : rebasedAnchor o.a16 (o.stood.getD o.p16) now16 = a16) :
        (Part.oven o).closed now16 =
          .oven { o with a16 := a16, former := some { before := o.a16, after := a16 }, stood := none } := by
      simp [Part.closed, OvenPart.rebased, known, phase, h]
    refine ⟨fun lo hi ahead => ?_, fun past => rebased _ (rebasedAnchor_of_past past)⟩
    obtain ⟨m, anchor, low, high⟩ := rebasedAnchor_of_ahead (by omega) hi ahead
    exact ⟨m, _, rebased _ rfl, anchor, low, high⟩
  · have passed : ¬ (o.periodKnown && o.phaseKnown) = true := by
      rw [Bool.and_eq_true]
      rcases unknown with h | h <;> simp [h]
    exact congrArg Part.oven (if_neg passed)
  · obtain ⟨share, low, high⟩ := Airtime.closed_share law
    exact ⟨_, rfl, fun _ _ => rfl, share, low, high⟩

end Sys2Proof.Machine
end

section
/-! PROOFS. Aging at a boundary (R17 to R23): what the counters make of a live record, which records leave, and the
notices of those that retire. -/

namespace Sys2Proof.Machine

/-! ### The counters and the state (R18, R19) -/

/-- The idle count of a record after the epoch (R18). -/
def Record.idleAfter (r : Record) (blind : Bool) : Nat :=
  if blind then r.idle else if r.hitFlag then 0 else min 255 (r.idle + 1)

/-- The empty streak of a record after the epoch (R18). -/
def Record.streakAfter (r : Record) (blind : Bool) : Nat :=
  if blind then r.emptyStreak else if r.hitFlag then 0
  else if r.kind = .oven then min 255 (r.emptyStreak + 1) else r.emptyStreak

/-- The record with its counters after the epoch, in a given state. -/
def Record.countedIn (r : Record) (blind : Bool) (st : RecState) : Record :=
  { r with idle := r.idleAfter blind, emptyStreak := r.streakAfter blind, state := st }

/-- A record silent for as long as its kind's limit of TRACKED (R19). -/
def Record.Silent (r : Record) (blind : Bool) : Prop :=
  if r.kind = .oven then 2 ≤ r.streakAfter blind else 10 ≤ r.idleAfter blind

/-- A TRACKED or COASTING record that the epoch leaves in COASTING (R18, R19). -/
def Record.Coasts (r : Record) (blind : Bool) : Prop :=
  (r.state = .coasting ∧ (blind = true ∨ r.hitFlag = false)) ∨ (r.state = .tracked ∧ r.Silent blind)

/-- The silence at which a record of its kind retires (R20). -/
def Params.silenceLimit (p : Params) (r : Record) : Nat :=
  if r.kind = .oven then p.ovenRetire else p.neighbourRetire

/-- A learned record in COASTING at its limit (R20). -/
def Record.AgesOut (r : Record) (p : Params) (blind : Bool) : Prop :=
  r.Coasts blind ∧ r.origin = .learned ∧ p.silenceLimit r ≤ r.idleAfter blind

section Turned
variable {r : Record} {blind : Bool}

theorem Record.fallsSilent_iff : r.fallsSilent = true ↔ if r.kind = .oven then 2 ≤ r.emptyStreak else 10 ≤ r.idle := by
  unfold Record.fallsSilent
  cases r.kind <;> simp

theorem Params.retireLimit_eq (p : Params) (r : Record) : p.retireLimit r = p.silenceLimit r := by
  unfold Params.retireLimit Params.silenceLimit
  cases r.kind <;> rfl

theorem Kind.retiredNotice_eq (k : Kind) : k.retiredNotice = if k = .oven then .ovenRetired else .neighbourRetired := by
  cases k <;> rfl

/-- A record counts and keeps its state (R18). -/
theorem Record.countSilence_of_unheard (h : ¬ (blind = false ∧ r.hitFlag = true ∧ r.state = .coasting)) :
    r.countSilence blind = r.countedIn blind r.state := by
  unfold Record.countSilence Record.countedIn Record.idleAfter Record.streakAfter satInc255
  split
  · rfl
  · next sighted =>
    split
    · next hit =>
      rw [if_neg fun state => h ⟨by simpa using sighted, hit, state⟩]
    · rfl

/-- A record in COASTING that is heard returns to TRACKED (R18). -/
theorem Record.countSilence_of_heard (sighted : blind = false) (hit : r.hitFlag = true) (state : r.state = .coasting) :
    r.countSilence blind = r.countedIn blind .tracked := by
  simp [Record.countSilence, Record.countedIn, Record.idleAfter, Record.streakAfter, sighted, hit, state]

theorem Record.coast_of_silent (h : r.Silent blind) : (r.countedIn blind .tracked).coast = r.countedIn blind .coasting :=
  if_pos ⟨rfl, Record.fallsSilent_iff.2 h⟩

theorem Record.coast_of_loud (h : ¬ r.Silent blind) : (r.countedIn blind .tracked).coast = r.countedIn blind .tracked :=
  if_neg fun both => h ((Record.fallsSilent_iff (r := r.countedIn blind .tracked)).1 both.2)

theorem Record.coast_of_untracked {st : RecState} (h : st ≠ .tracked) :
    (r.countedIn blind st).coast = r.countedIn blind st := if_neg fun both => h both.1

theorem Record.turned_of_coasts (h : r.Coasts blind) : r.turned blind = r.countedIn blind .coasting := by
  rw [Record.turned]
  rcases h with ⟨state, unheard⟩ | ⟨state, silent⟩
  · have stays : ¬ (blind = false ∧ r.hitFlag = true ∧ r.state = .coasting) := by
      rintro ⟨h1, h2, -⟩
      simp [h1, h2] at unheard
    rw [Record.countSilence_of_unheard stays, state, Record.coast_of_untracked (by decide)]
  · rw [Record.countSilence_of_unheard (by simp [state]), state, Record.coast_of_silent silent]

theorem Record.turned_of_not_coasts (live : r.state = .tracked ∨ r.state = .coasting) (h : ¬ r.Coasts blind) :
    r.turned blind = r.countedIn blind .tracked := by
  rw [Record.turned]
  rcases live with state | state
  · rw [Record.countSilence_of_unheard (by simp [state]), state,
      Record.coast_of_loud fun silent => h (.inr ⟨state, silent⟩)]
  · have sighted : blind = false := by
      by_contra b
      exact h (.inl ⟨state, .inl (by simpa using b)⟩)
    have hit : r.hitFlag = true := by
      by_contra b
      exact h (.inl ⟨state, .inr (by simpa using b)⟩)
    have loud : ¬ r.Silent blind := by simp [Record.Silent, Record.streakAfter, Record.idleAfter, sighted, hit]
    rw [Record.countSilence_of_heard sighted hit state, Record.coast_of_loud loud]

theorem Record.turned_of_candidate (h : r.state = .candidate) : r.turned blind = r.countedIn blind r.state := by
  rw [Record.turned, Record.countSilence_of_unheard (by simp [h]), Record.coast_of_untracked (by simp [h])]

/-! ### What stays and what leaves (R20, R21) -/

variable {p : Params}

theorem Record.aged_of_not_coasts (live : r.state = .tracked ∨ r.state = .coasting) (h : ¬ r.Coasts blind) :
    r.aged p blind = .stays { r.countedIn blind .tracked with hitFlag := false } := by
  rw [Record.aged_eq, Record.turned_of_not_coasts live h]
  simp [Record.countedIn]

/-- The retirement test of a coasting record (R20). -/
theorem Record.retires_iff : ((r.countedIn blind .coasting).state = .coasting
      ∧ (r.countedIn blind .coasting).origin = .learned
      ∧ p.retireLimit (r.countedIn blind .coasting) ≤ (r.countedIn blind .coasting).idle) ↔
    r.origin = .learned ∧ p.silenceLimit r ≤ r.idleAfter blind := by
  rw [Params.retireLimit_eq]
  exact ⟨fun ⟨_, rest⟩ => rest, fun rest => ⟨rfl, rest⟩⟩

theorem Record.aged_of_agesOut (h : r.AgesOut p blind) :
    r.aged p blind = .leaves (r.countedIn blind .coasting) (some r.kind.retiredNotice) := by
  rw [Record.aged_eq, Record.turned_of_coasts h.1]
  exact if_pos (Record.retires_iff.2 h.2)

theorem Record.aged_of_coasting (h : r.Coasts blind) (no : ¬ r.AgesOut p blind) :
    r.aged p blind = .stays { r.countedIn blind .coasting with hitFlag := false } := by
  rw [Record.aged_eq, Record.turned_of_coasts h]
  exact (if_neg fun retires => no ⟨h, Record.retires_iff.1 retires⟩).trans (if_neg (by simp [Record.countedIn]))

/-- A candidate counts its age, and expires at the limit (R21). -/
theorem Record.aged_of_candidate (h : r.state = .candidate) : r.aged p blind =
    if p.candidateLimit ≤ min 255 (r.age + 1) then
      .leaves { r.countedIn blind r.state with age := min 255 (r.age + 1) } none
    else .stays { r.countedIn blind r.state with age := min 255 (r.age + 1), hitFlag := false } := by
  have coasting : ¬ (r.countedIn blind r.state).state = .coasting := by simp [Record.countedIn, h]
  rw [Record.aged_eq, Record.turned_of_candidate h]
  exact (if_neg fun all => coasting all.1).trans (if_pos h)

end Turned

/-! ### One slot's boundary (R17 to R23) -/

section AtBoundary
variable {p : Params} {blind : Bool} {now16 : Time16} {order : BoundaryOrder} {x : Slot} {r r' : Record}

theorem Slot.atBoundary_of_free (h : x.record = none) : x.atBoundary p blind now16 order = (x, none) := by
  rw [Slot.atBoundary, h]

variable (hr : x.record = some r)
include hr

theorem Slot.atBoundary_of_retired (h : r.state = .retired) : x.atBoundary p blind now16 order = (x, none) := by
  simp only [Slot.atBoundary, hr, if_pos h]

variable (live : r.state ≠ .retired)
include live

theorem Slot.atBoundary_of_stays (h : r.aged p blind = .stays r') : x.atBoundary p blind now16 order =
    (⟨x.gen, some { r' with part := r.part.closed now16 }⟩, none) := by
  simp only [Slot.atBoundary, hr, if_neg live, h]

theorem Slot.atBoundary_of_leaves {n : Option NoticeKind} (h : r.aged p blind = .leaves r' n) :
    x.atBoundary p blind now16 order =
      (Slot.retire ⟨x.gen, some { r' with part := r.part.atRetirement order now16 }⟩, n) := by
  simp only [Slot.atBoundary, hr, if_neg live, h]

/-- What leaves is freed, or stays in RETIRED while it is held, with its part from before or after the update. -/
theorem Slot.atBoundary_leaves {n : Option NoticeKind} (h : r.aged p blind = .leaves r' n) (held : r'.held = r.held) :
    (r.held = false → (x.atBoundary p blind now16 order).1 = ⟨x.gen + 1, none⟩)
      ∧ (r.held = true → ∃ part, (part = r.part ∨ part = r.part.closed now16)
        ∧ (x.atBoundary p blind now16 order).1 = ⟨x.gen, some { r' with part := part, state := .retired }⟩) := by
  rw [Slot.atBoundary_of_leaves hr live h]
  refine ⟨fun no => ?_, fun yes => ⟨_, r.part.atRetirement_cases order now16, ?_⟩⟩
  · simp only [Slot.retire, held, no]; rfl
  · simp only [Slot.retire, held, yes]; rfl

end AtBoundary

/-- A record leaves with a notice exactly where it retires by its limit (R20, R21). -/
theorem Record.aged_cases (r : Record) (p : Params) (blind : Bool) (live : r.state ≠ .retired) :
    (r.AgesOut p blind ∧ r.aged p blind = .leaves (r.countedIn blind .coasting) (some r.kind.retiredNotice))
      ∨ (¬ r.AgesOut p blind ∧ ((∃ q, r.aged p blind = .stays q) ∨ ∃ q, r.aged p blind = .leaves q none)) := by
  by_cases out : r.AgesOut p blind
  · exact .inl ⟨out, Record.aged_of_agesOut out⟩
  refine .inr ⟨out, ?_⟩
  by_cases coasts : r.Coasts blind
  · exact .inl ⟨_, Record.aged_of_coasting coasts out⟩
  cases state : r.state with
  | retired => exact absurd state live
  | candidate =>
    rw [Record.aged_of_candidate state]
    split
    · exact .inr ⟨_, rfl⟩
    · exact .inl ⟨_, rfl⟩
  | tracked => exact .inl ⟨_, Record.aged_of_not_coasts (.inl state) coasts⟩
  | coasting => exact .inl ⟨_, Record.aged_of_not_coasts (.inr state) coasts⟩

/-- Aging raises a notice for what retires by its limit alone (R20, R21). -/
theorem Slot.atBoundary_notice {p : Params} {blind : Bool} {now16 : Time16} {order : BoundaryOrder} {x : Slot}
    {k : NoticeKind} : (x.atBoundary p blind now16 order).2 = some k ↔
      ∃ r, x.record = some r ∧ r.AgesOut p blind ∧ k = if r.kind = .oven then .ovenRetired else .neighbourRetired := by
  cases hr : x.record with
  | none => simp [Slot.atBoundary_of_free hr]
  | some r =>
    simp only [Option.some.injEq, exists_eq_left', ← Kind.retiredNotice_eq]
    by_cases state : r.state = .retired
    · have no : ¬ r.AgesOut p blind := by rintro ⟨⟨h, -⟩ | ⟨h, -⟩, -⟩ <;> simp [state] at h
      simp [Slot.atBoundary_of_retired hr state, no]
    · rcases r.aged_cases p blind state with ⟨out, aged⟩ | ⟨no, ⟨q, aged⟩ | ⟨q, aged⟩⟩
      · simp [Slot.atBoundary_of_leaves hr state aged, out, eq_comm]
      · simp [Slot.atBoundary_of_stays hr state aged, no]
      · simp [Slot.atBoundary_of_leaves hr state aged, no]

/-! ### The notices of a boundary, and their order (R20) -/

/-- What a raised notice makes of the notices depends on them and the parameters alone. -/
theorem State.raise_notices_congr {u v : State} (notices : u.notices = v.notices) (params : u.params = v.params)
    (k : NoticeKind) (subj : Subject) (data : NoticeData) :
    (u.raise k subj data).notices = (v.raise k subj data).notices := by
  unfold State.raise State.judge
  rw [notices, params]
  split
  · exact notices
  · rfl

theorem insertByRank_perm (rank : Nat → Nat) (n : AgingNotice) (l : List AgingNotice) :
    (insertByRank rank n l).Perm (n :: l) := by
  induction l with
  | nil => exact .refl _
  | cons m l ih =>
    unfold insertByRank
    split
    · exact .refl _
    · exact (ih.cons m).trans (.swap n m l)

/-- The free order raises each notice once (log entry 5). -/
theorem rankNotices_perm (rank : Nat → Nat) (l : List AgingNotice) : (rankNotices rank l).Perm l := by
  induction l with
  | nil => exact .refl _
  | cons n l ih => exact (insertByRank_perm rank n _).trans (ih.cons n)

section Notices
variable {t : Table} {f : Slot → Option NoticeKind}

theorem Table.mem_agingNotices {n : AgingNotice} : n ∈ t.agingNotices f ↔
    n.slot < t.slots.length ∧ f (t.slot n.slot) = some n.kind ∧ n.gen = (t.slot n.slot).gen := by
  simp only [Table.agingNotices, List.mem_filterMap, Prod.exists, List.mem_zipIdx_iff_getElem?, Option.map_eq_some_iff]
  constructor
  · rintro ⟨x, i, hx, k, hk, rfl⟩
    have slot : t.slot i = x := by simp [Table.slot, List.getD, hx]
    exact ⟨(List.getElem?_eq_some_iff.1 hx).1, slot ▸ hk, by rw [slot]⟩
  · rintro ⟨lt, kind, gen⟩
    have found : t.slots[n.slot]? = some (t.slot n.slot) := by
      simp [Table.slot, List.getD, List.getElem?_eq_getElem lt]
    exact ⟨_, _, found, _, kind, by rw [← gen]⟩

/-- No slot has two notices. -/
theorem Table.agingNotices_nodup (t : Table) (f : Slot → Option NoticeKind) :
    ((t.agingNotices f).map (·.slot)).Nodup := by
  have ascending : t.slots.zipIdx.Pairwise (fun a b => a.2 ≠ b.2) := by
    have nodup : (t.slots.zipIdx.map Prod.snd).Nodup := by
      rw [List.zipIdx_map_snd]
      exact List.nodup_range'
    exact List.pairwise_map.1 nodup
  refine List.pairwise_map.2 (ascending.filterMap _ fun a b ne n hn m hm => ?_)
  obtain ⟨_, _, rfl⟩ := Option.map_eq_some_iff.1 hn
  obtain ⟨_, _, rfl⟩ := Option.map_eq_some_iff.1 hm
  exact ne

end Notices

/-- The notices of several retirements, each with the handle of its slot. -/
theorem foldl_raise_congr (t : Table) (l : List AgingNotice) (gens : ∀ n ∈ l, n.gen = (t.slot n.slot).gen)
    {u v : State} (notices : u.notices = v.notices) (params : u.params = v.params) :
    (l.foldl (fun acc n => acc.raise n.kind (.handle n.slot n.gen) .none) u).notices
      = ((l.map fun n => (n.slot, n.kind)).foldl
          (fun acc x => acc.raise x.2 (.handle x.1 (t.slot x.1).gen) .none) v).notices := by
  induction l generalizing u v with
  | nil => exact notices
  | cons n l ih =>
    simp only [List.map_cons, List.foldl_cons]
    refine ih (fun m hm => gens m (List.mem_cons_of_mem _ hm)) ?_ ?_
    · rw [gens n List.mem_cons_self]
      exact State.raise_notices_congr notices params _ _ _
    · rw [State.raise_params, State.raise_params, params]

/-- A FREE slot that no slot function touches stays, in the table or past it. -/
theorem Table.slot_mapSlots_of_free {t : Table} {g : Slot → Slot} {i : Nat} (free : ∀ x : Slot, x.record = none → g x = x)
    (h : t.record i = none) : (t.mapSlots g).slot i = t.slot i := by
  by_cases lt : i < t.slots.length
  · rw [Table.slot_mapSlots lt, free _ h]
  · simp [Table.slot, Table.mapSlots_slots, List.getD, lt]

/-- A boundary's work on the table, slot by slot. -/
theorem State.boundaryWork_slot (s : State) : ∃ order, (∀ i, s.table.record i = none →
      s.boundaryWork.table.slot i = s.table.slot i)
    ∧ ∀ i r, s.table.record i = some r → s.boundaryWork.table.slot i =
        ((s.table.slot i).atBoundary s.params s.intake.blindFlag (to16 s.now) order).1 := by
  obtain ⟨_, e⟩ := s.boundaryWork_frame
  rw [e]
  refine ⟨_, fun i free => Table.slot_mapSlots_of_free (fun x hx => ?_) free,
    fun i r hr => Table.slot_mapSlots (Table.lt_of_record hr)⟩
  rw [Slot.atBoundary_of_free hx]

/-- A boundary's notices, in a free order of those that the slots raise. -/
theorem State.boundaryWork_notices (s : State) : ∃ (l : List AgingNotice) (order : BoundaryOrder) (u : State),
    s.boundaryWork.notices = (l.foldl (fun acc n => acc.raise n.kind (.handle n.slot n.gen) .none) u).notices
      ∧ l.Perm (s.table.agingNotices fun x => (x.atBoundary s.params s.intake.blindFlag (to16 s.now) order).2)
      ∧ u.notices = s.notices ∧ u.params = s.params :=
  ⟨_, _, _, rfl, rankNotices_perm _ _, rfl, rfl⟩

theorem State.boundaryWork_now (s : State) : s.boundaryWork.now = s.now :=
  (congrArg Timebase.time s.boundaryWork_timebase :)

/-- The retirements of a boundary: each slot once, by its record, and their notices in that order. -/
theorem State.boundaryWork_retirements {s v : State} (hn : s.notices = v.notices) (hp : s.params = v.params) :
    ∃ l : List (Nat × NoticeKind), (l.map (·.1)).Nodup
    ∧ (∀ i k, (i, k) ∈ l ↔ ∃ r, s.table.record i = some r ∧ r.AgesOut s.params s.intake.blindFlag
        ∧ k = if r.kind = .oven then .ovenRetired else .neighbourRetired)
    ∧ s.boundaryWork.notices = (l.foldl
        (fun u x => u.raise x.2 (.handle x.1 (s.table.slot x.1).gen) .none) v).notices := by
  obtain ⟨l, order, u, e, perm, notices, params⟩ := s.boundaryWork_notices
  refine ⟨l.map fun n => (n.slot, n.kind), ?_, fun i k => ?_, ?_⟩
  · rw [List.map_map]
    exact (perm.map _).nodup_iff.2 (Table.agingNotices_nodup _ _)
  · simp only [List.mem_map, Prod.mk.injEq, perm.mem_iff, Table.mem_agingNotices, Slot.atBoundary_notice]
    constructor
    · rintro ⟨n, ⟨-, raises, -⟩, rfl, rfl⟩
      exact raises
    · rintro ⟨r, hr, out⟩
      exact ⟨⟨i, k, (s.table.slot i).gen⟩, ⟨Table.lt_of_record hr, ⟨r, hr, out⟩, rfl⟩, rfl, rfl⟩
  · exact e.trans (foldl_raise_congr s.table l (fun n mem => (Table.mem_agingNotices.1 (perm.mem_iff.1 mem)).2.2)
      (notices.trans hn) (params.trans hp))

/-- Settles O16: every slot ages by its own record, and the retirements raise their notices in the free order. -/
theorem agingOfLiveRecords : Obligations.AgingOfLiveRecords := by
  intro s epoch reached blind idle streak age silent coasts limit retires
  obtain ⟨order, free, taken⟩ := (s.after s.timebase.untilBoundary).boundaryWork_slot
  refine ⟨_, execEpochBoundary_of_reached epoch reached, free, fun i r hr => ?_,
    State.boundaryWork_retirements (s := s.after s.timebase.untilBoundary) rfl rfl⟩
  intro part counted stays leaves
  have closed : part = r.part.closed (to16 (s.after s.timebase.untilBoundary).now) := by
    unfold part
    rw [State.boundaryWork_now]
  have slot := taken i r hr
  have staying {q : Record} (live : r.state ≠ .retired)
      (aged : r.aged s.params blind = .stays { q with hitFlag := false }) : stays q := by
    unfold stays
    rw [closed]
    exact slot.trans (congrArg Prod.fst (Slot.atBoundary_of_stays hr live aged))
  have leaving {q : Record} {st : RecState} {n : Option NoticeKind} (live : r.state ≠ .retired)
      (aged : r.aged s.params blind = .leaves { q with state := st } n) (held : q.held = r.held) : leaves q := by
    obtain ⟨freed, kept⟩ := Slot.atBoundary_leaves (now16 := to16 (s.after s.timebase.untilBoundary).now)
      (order := order) hr live aged held
    refine ⟨fun no => slot.trans (freed no), fun yes => ?_⟩
    obtain ⟨p, hp, e⟩ := kept yes
    exact ⟨p, hp.imp_right (·.trans closed.symm), slot.trans e⟩
  refine ⟨fun retired => slot.trans (congrArg Prod.fst (Slot.atBoundary_of_retired hr retired)), fun live => ?_,
    fun candidate => ?_⟩
  · have live' : r.state ≠ .retired := by rcases live with h | h <;> simp [h]
    exact ⟨fun no => staying live' (Record.aged_of_not_coasts live no),
      fun yes no => staying live' (Record.aged_of_coasting yes no),
      fun out => leaving live' (Record.aged_of_agesOut out) rfl⟩
  · have live : r.state ≠ .retired := by simp [candidate]
    have aged := Record.aged_of_candidate (p := s.params) (blind := blind) candidate
    exact ⟨fun young => staying live (aged.trans (if_neg (not_le.2 young))),
      fun old => leaving live (aged.trans (if_pos old)) rfl⟩

end Sys2Proof.Machine
end

section
/-! PROOFS. MID_EPOCH: the loads slot by slot, the costing of every channel, and the acts of the two evaluations
(R77, R79, R134 to R140). -/

namespace Sys2Proof.Machine

/-! ### The loads of a span (R77, R79) -/

theorem List.sum_filterMap {α : Type} (f : α → Option Nat) (l : List α) :
    (l.filterMap f).sum = (l.map fun x => (f x).getD 0).sum := by
  induction l with
  | nil => rfl
  | cons x l ih =>
    rw [List.filterMap_cons, List.map_cons, List.sum_cons, ← ih]
    cases f x with
    | none => simp
    | some v => simp

/-- A sum over the records is one over the slots, to which a FREE slot adds nothing. -/
theorem Table.sum_records (t : Table) (g : Record → Nat) :
    (t.records.map fun x => g x.2).sum = (t.slots.map fun x => (x.record.map g).getD 0).sum := by
  rw [Table.records, List.map_filterMap, List.sum_filterMap]
  simp only [Option.map_map, Function.comp_def]
  conv_rhs => rw [← List.zipIdx_map_fst 0 t.slots, List.map_map]
  rfl

section Loads
variable {r : Record} {lo hi : Nat}

theorem Record.over_iff : (r.counted && r.span.overlaps ⟨lo, hi⟩) = true ↔ r.Over lo hi := by
  simp [Record.counted, Span.overlaps, Record.Over]

theorem Slot.networkShare_eq (x : Slot) (lo hi : Nat) :
    x.networkShare lo hi = (x.record.map (·.networkTerm ⟨lo, hi⟩)).getD 0 := by
  unfold Slot.networkShare
  cases x.record with
  | none => rfl
  | some r =>
    have test (a : Airtime) : (r.Over lo hi ∧ -82 ≤ a.level) ↔
        (r.counted && r.span.overlaps ⟨lo, hi⟩ && decide (loadLevel ≤ a.level)) = true := by
      rw [Bool.and_eq_true, Record.over_iff, decide_eq_true_iff]; rfl
    simp only [Option.map_some, Option.getD_some, Record.networkTerm]
    cases h : r.part with
    | oven o => rfl
    | neighbour tag ch a => simp only [Part.airtime?, test]
    | steady a => simp only [Part.airtime?, test]

theorem OvenPart.duty_eq (o : OvenPart) : o.duty = (2 * (256 * o.d * 16) + o.p16) / (2 * o.p16) := by
  unfold OvenPart.duty roundDiv
  norm_cast

theorem Slot.ovenDuty_eq (x : Slot) (lo hi : Nat) :
    x.ovenDuty lo hi = (x.record.map fun r => ((r.relevantOven ⟨lo, hi⟩).map OvenPart.duty).getD 0).getD 0 := by
  unfold Slot.ovenDuty
  cases x.record with
  | none => rfl
  | some r =>
    have test (o : OvenPart) : (r.Over lo hi ∧ o.periodKnown = true ∧ o.phaseKnown = true) ↔
        (r.counted && o.periodKnown && o.phaseKnown && r.span.overlaps ⟨lo, hi⟩) = true := by
      rw [← Record.over_iff]
      simp only [Bool.and_eq_true]
      tauto
    simp only [Option.map_some, Option.getD_some, Record.relevantOven, Record.oven?]
    cases h : r.part with
    | oven o =>
      simp only [test, ← OvenPart.duty_eq]
      split <;> rfl
    | neighbour tag ch a => rfl
    | steady a => rfl

theorem Table.networkLoad_eq (t : Table) (lo hi : Nat) : t.networkLoad ⟨lo, hi⟩ = t.networkIn lo hi := by
  rw [Table.networkLoad, Table.networkIn, t.sum_records fun r => r.networkTerm ⟨lo, hi⟩]
  simp only [Slot.networkShare_eq]

theorem Table.ovenLoad_eq (t : Table) (lo hi : Nat) : t.ovenLoad ⟨lo, hi⟩ = t.ovensIn lo hi := by
  rw [Table.ovenLoad, Table.ovensIn, List.sum_filterMap,
    t.sum_records fun r => ((r.relevantOven ⟨lo, hi⟩).map OvenPart.duty).getD 0]
  simp only [Slot.ovenDuty_eq]

end Loads

/-! ### The costing (R134) -/

theorem channelSpan_eq (ch : Nat) :
    channelSpan ch = ⟨if ch = 14 then 74 else 5 * ch - 3, if ch = 14 then 94 else 5 * ch + 17⟩ := by
  simp only [channelSpan, channelCentre, Span.mk.injEq]
  split <;> omega

theorem allChannels_getElem? {ch : Nat} (lo : 1 ≤ ch) (hi : ch ≤ 14) : allChannels[ch - 1]? = some ch := by
  rw [allChannels, List.getElem?_range' (by omega)]
  congr 1
  omega

theorem State.costOf_eq (s : State) {ch : Nat} (lo : 1 ≤ ch) : s.costOf ch =
    if ch ≤ s.radio.domain.highest then
      let oven := s.table.ovensIn (if ch = 14 then 74 else 5 * ch - 3) (if ch = 14 then 94 else 5 * ch + 17)
      let network := s.table.networkIn (if ch = 14 then 74 else 5 * ch - 3) (if ch = 14 then 94 else 5 * ch + 17)
      { oven := oven, network := network, cost := min 255 (oven + network) }
    else { oven := 0, network := 0, cost := 0 } := by
  have permits : s.radio.domain.permits ch = true ↔ ch ≤ s.radio.domain.highest := by
    rw [Domain.permits_iff]; exact and_iff_right lo
  simp only [State.costOf, permits, channelSpan_eq, Table.ovenLoad_eq, Table.networkLoad_eq]

/-! ### The evaluations (R136 to R140) -/

/-- What the act of an evaluation makes of the chain (R139, R140). -/
def ChainRec.advisedBy (x : ChainRec) (v : Evaluation) : ChainRec :=
  match v.advised with
  | none => { x with streak := v.streak }
  | some best => { x with
      streak := v.streak, lastAdvised := some best, handed := if v.moves then some best else x.handed }

section Acts
variable {s : State} {c : Chain} {v : Evaluation}

theorem ChainRec.advisedBy_channels (x : ChainRec) (v : Evaluation) :
    (x.advisedBy v).present = x.present ∧ (x.advisedBy v).target = x.target := by
  unfold ChainRec.advisedBy
  split <;> exact ⟨rfl, rfl⟩

theorem State.actOn_radio (s : State) (c : Chain) (v : Evaluation) :
    (s.actOn c v).radio = s.radio.setChain c ((s.chain c).advisedBy v) := by
  rcases s.actOn_cases c v with ⟨h, e⟩ | ⟨best, h, e⟩
  · rw [e, ChainRec.advisedBy, h]; rfl
  · rw [e, ChainRec.advisedBy, h]

theorem State.actOn_notices_of_none (h : v.advised = none) : (s.actOn c v).notices = s.notices := by
  rcases s.actOn_cases c v with ⟨-, e⟩ | ⟨best, some, -⟩
  · rw [e]; rfl
  · rw [h] at some; cases some

theorem State.actOn_notices_of_some {w : State} {best : Nat} (h : v.advised = some best)
    (notices : s.notices = w.notices) (params : s.params = w.params) :
    (s.actOn c v).notices = (w.raise .advice (.chain c) (.advice best)).notices := by
  rcases s.actOn_cases c v with ⟨none, -⟩ | ⟨b, some, e⟩
  · rw [h] at none; cases none
  · cases h.symm.trans some
    rw [e]
    exact State.raise_notices_congr notices params _ _ _

theorem State.actOn_params (s : State) (c : Chain) (v : Evaluation) : (s.actOn c v).params = s.params := by
  obtain ⟨_, _, e⟩ := s.actOn_writes c v
  rw [e]

theorem Radio.chain_setChain_of_ne {r : Radio} {c d : Chain} {x : ChainRec} (h : c ≠ d) :
    (r.setChain d x).chain c = r.chain c := by
  rw [otherChain_of_ne h, Radio.chain_setChain_other]

/-- Each evaluation acts on its own chain (R136). -/
theorem State.midEpochWork_chain (s : State) (c : Chain) :
    s.midEpochWork.chain c = (s.chain c).advisedBy (s.recosted.evaluateChain c) := by
  obtain ⟨d, e⟩ := s.midEpochWork_eq
  rw [e, State.chain, State.actOn_radio]
  by_cases h : c = d
  · subst h
    rw [Radio.chain_setChain_of_ne (otherChain_ne c).symm, State.actOn_radio, Radio.chain_setChain]
    rfl
  · rw [otherChain_of_ne h, Radio.chain_setChain, State.chain, State.actOn_radio, Radio.chain_setChain_other]
    rfl

/-- The advisor leaves the tune map and the domain (R136). -/
theorem State.midEpochWork_radio (s : State) : s.midEpochWork.radio.tuneMap = s.radio.tuneMap
    ∧ s.midEpochWork.radio.domain = s.radio.domain ∧ s.midEpochWork.radio.domainLock = s.radio.domainLock := by
  obtain ⟨d, e⟩ := s.midEpochWork_eq
  simp only [e, State.actOn_radio, Radio.setChain_tuneMap, Radio.setChain_domain, Radio.setChain_domainLock]
  exact ⟨rfl, rfl, rfl⟩

/-- The streak of a chain on a present channel after an evaluation, before it completes (R138). -/
def State.streakOn (s : State) (c : Chain) (p : Nat) : Nat :=
  if s.params.adviceMargin + s.advisor.costAt (s.bestChannel c p) ≤ s.advisor.costAt p then
    min 15 ((s.chain c).streak + 1) else 0

theorem State.evaluateChain_of_absent (h : (s.chain c).state ≠ .ready ∨ (s.chain c).present = none) :
    s.evaluateChain c = { streak := 0, advised := none, moves := false } := by
  unfold State.evaluateChain
  dsimp only
  split
  · next state present => simp [state, present] at h
  · rfl

section Serving
variable {p : Nat} (ready : (s.chain c).state = .ready) (present : (s.chain c).present = some p)
include ready present

theorem State.evaluateChain_of_short (h : s.streakOn c p < s.params.advicePersist) :
    s.evaluateChain c = { streak := s.streakOn c p, advised := none, moves := false } := by
  simp only [State.evaluateChain, ready, present]
  exact if_neg (not_le.2 h)

theorem State.evaluateChain_of_full (h : s.params.advicePersist ≤ s.streakOn c p) : s.evaluateChain c =
    { streak := 0, advised := some (s.bestChannel c p),
      moves := (s.chain c).auto && decide (s.params.autoHoldoff ≤ (s.chain c).holdOff) } := by
  simp only [State.evaluateChain, ready, present]
  exact if_pos h

end Serving

/-- A chain is advised where it serves and its streak completes (R138). -/
theorem State.advised_iff {best : Nat} : (s.evaluateChain c).advised = some best ↔
    ∃ p, ((s.chain c).state = .ready ∧ (s.chain c).present = some p) ∧ s.params.advicePersist ≤ s.streakOn c p
      ∧ best = s.bestChannel c p := by
  constructor
  · intro h
    by_cases absent : (s.chain c).state ≠ .ready ∨ (s.chain c).present = none
    · rw [State.evaluateChain_of_absent absent] at h; cases h
    · obtain ⟨ready, present⟩ := not_or.1 absent
      obtain ⟨p, present⟩ := Option.ne_none_iff_exists'.1 present
      have ready := not_not.1 ready
      rcases lt_or_ge (s.streakOn c p) s.params.advicePersist with short | full
      · rw [State.evaluateChain_of_short ready present short] at h; cases h
      · rw [State.evaluateChain_of_full ready present full] at h
        exact ⟨p, ⟨ready, present⟩, full, (Option.some.inj h).symm⟩
  · rintro ⟨p, ⟨ready, present⟩, full, rfl⟩
    rw [State.evaluateChain_of_full ready present full]

end Acts

/-- The best channel is that of the costing and of the other chain's channels (R137). -/
theorem State.bestChannel_congr {s u : State} {c : Chain} (advisor : s.advisor = u.advisor)
    (domain : s.radio.domain = u.radio.domain)
    (present : (s.chain (otherChain c)).present = (u.chain (otherChain c)).present)
    (target : (s.chain (otherChain c)).target = (u.chain (otherChain c)).target) (p : Nat) :
    s.bestChannel c p = u.bestChannel c p := by
  simp only [State.bestChannel, State.eligible, ChainRec.uses, advisor, domain, present, target]

theorem State.bestChannel_midEpochWork (s : State) (c : Chain) (p : Nat) :
    s.midEpochWork.bestChannel c p = s.recosted.bestChannel c p := by
  obtain ⟨-, domain, -⟩ := s.midEpochWork_radio
  obtain ⟨present, target⟩ := (s.chain (otherChain c)).advisedBy_channels (s.recosted.evaluateChain (otherChain c))
  exact State.bestChannel_congr s.midEpochWork_advisor domain
    ((congrArg ChainRec.present (s.midEpochWork_chain _)).trans present)
    ((congrArg ChainRec.target (s.midEpochWork_chain _)).trans target) p

/-! ### The advices (R139) -/

section Advices
variable {s : State} {c : Chain}

theorem State.midEpochWork_notices_of_none (h : ∀ c, (s.recosted.evaluateChain c).advised = none) :
    s.midEpochWork.notices = s.notices := by
  obtain ⟨d, e⟩ := s.midEpochWork_eq
  rw [e, State.actOn_notices_of_none (h _), State.actOn_notices_of_none (h _)]
  rfl

theorem State.midEpochWork_notices_of_one {best : Nat} (h : (s.recosted.evaluateChain c).advised = some best)
    (other : (s.recosted.evaluateChain (otherChain c)).advised = none) :
    s.midEpochWork.notices = (s.raise .advice (.chain c) (.advice best)).notices := by
  obtain ⟨d, e⟩ := s.midEpochWork_eq
  rw [e]
  by_cases same : d = c
  · subst same
    rw [State.actOn_notices_of_none other]
    exact State.actOn_notices_of_some h rfl rfl
  · rw [otherChain_of_ne same, otherChain_otherChain]
    exact State.actOn_notices_of_some h (State.actOn_notices_of_none other) (State.actOn_params ..)

theorem State.midEpochWork_notices_of_both {a b : Nat} (ha : (s.recosted.evaluateChain .A).advised = some a)
    (hb : (s.recosted.evaluateChain .B).advised = some b) :
    ∃ c x y, ((c = .A ∧ x = a ∧ y = b) ∨ (c = .B ∧ x = b ∧ y = a)) ∧ s.midEpochWork.notices =
      ((s.raise .advice (.chain c) (.advice x)).raise .advice (.chain (otherChain c)) (.advice y)).notices := by
  obtain ⟨d, e⟩ := s.midEpochWork_eq
  rw [e]
  cases d with
  | A => exact ⟨.A, a, b, .inl ⟨rfl, rfl, rfl⟩, State.actOn_notices_of_some hb (State.actOn_notices_of_some ha rfl rfl)
      ((State.actOn_params ..).trans (State.raise_params s _ _ _).symm)⟩
  | B => exact ⟨.B, b, a, .inr ⟨rfl, rfl, rfl⟩, State.actOn_notices_of_some ha (State.actOn_notices_of_some hb rfl rfl)
      ((State.actOn_params ..).trans (State.raise_params s _ _ _).symm)⟩

end Advices

/-! ### The instant (R147) -/

section Instant
variable {s : State} (epoch : s.timebase.epochTimer < 100000) (reached : s.Reaches s.timebase.untilMidEpoch)
include epoch reached

theorem execMidEpoch_of_reached : execMidEpoch s = .next (s.after s.timebase.untilMidEpoch).midEpochWork :=
  congrArg _ (State.atInstant_reached _ epoch reached)

/-- At a mid-epoch that is reached the epoch timer has not restarted, and no boundary is passed. -/
theorem Timebase.later_untilMidEpoch : s.timebase.later s.timebase.untilMidEpoch = { s.timebase with
    time := s.now + BitVec.ofNat 32 s.timebase.untilMidEpoch
    epochTimer := s.timebase.epochTimer + s.timebase.untilMidEpoch
    midDue := true } := by
  obtain ⟨-, within, -⟩ := reached
  unfold Timebase.untilMidEpoch midEpochAt epochLength at within ⊢
  unfold Timebase.later
  cases due : s.timebase.midDue with
  | true =>
    have short : ¬ s.timebase.epochTimer = 100000 := by omega
    simp [short, Nat.mod_eq_of_lt epoch]
    rfl
  | false =>
    have before : s.timebase.epochTimer < 50000 := by
      by_contra after
      simp only [due, after, Bool.false_eq_true, if_false] at within
      omega
    have half : s.timebase.epochTimer + (50000 - s.timebase.epochTimer) = 50000 := by omega
    simp [before, half]
    rfl

end Instant

/-- Settles O18: the costing, and then each chain by its own evaluation. -/
theorem midEpochCostsAndAdvises : Obligations.MidEpochCostsAndAdvises := by
  intro s epoch n
  refine ⟨fun early => congrArg _ (State.atInstant_not_reached _ epoch early), fun reached =>
    ⟨_, execMidEpoch_of_reached epoch reached, ?_, ?_⟩⟩
  · rw [State.midEpochWork_timebase, State.after, Timebase.later_untilMidEpoch epoch reached]
    rfl
  generalize s.timebase.untilMidEpoch = k
  have advisor : (s.after k).midEpochWork.advisor = (s.after k).recosted.advisor := (s.after k).midEpochWork_advisor
  have best := (s.after k).bestChannel_midEpochWork
  refine ⟨by rw [advisor]; rfl, by rw [advisor]; rfl, fun ch lo hi => ?_, ?_, ?_⟩
  · rw [advisor]
    show (allChannels.map (s.after k).costOf)[ch - 1]? = _
    rw [List.getElem?_map, allChannels_getElem? lo hi]
    exact congrArg some (State.costOf_eq (s.after k) lo)
  · intro streak serves advises
    have streak_eq (c : Chain) (p : Nat) : streak c p = (s.after k).recosted.streakOn c p := by
      simp only [streak, advisor, best]; rfl
    have advises_iff (c : Chain) (x : Nat) :
        advises c x ↔ ((s.after k).recosted.evaluateChain c).advised = some x := by
      simp only [State.advised_iff, advises, serves, streak_eq, best]; rfl
    have silent {c : Chain} (h : ∀ x, ¬ advises c x) : ((s.after k).recosted.evaluateChain c).advised = none :=
      Option.eq_none_iff_forall_ne_some.2 fun x e => h x ((advises_iff c x).2 e)
    have chain (c : Chain) {v : Evaluation} (h : (s.after k).recosted.evaluateChain c = v) :
        (s.after k).midEpochWork.chain c = (s.chain c).advisedBy v := h ▸ (s.after k).midEpochWork_chain c
    have raised (kind : NoticeKind) (subj : Subject) (data : NoticeData) :
        ((s.after k).raise kind subj data).notices = (s.raise kind subj data).notices :=
      State.raise_notices_congr (u := s.after k) (v := s) rfl rfl kind subj data
    refine ⟨fun c absent => chain c (State.evaluateChain_of_absent absent), fun c p ⟨ready, present⟩ short => ?_,
      fun c p ⟨ready, present⟩ full => ?_, fun none => ?_, fun c x one other => ?_, fun a b ha hb => ?_⟩
    · rw [streak_eq] at short ⊢
      exact chain c (State.evaluateChain_of_short ready present short)
    · rw [streak_eq] at full
      refine (chain c (State.evaluateChain_of_full ready present full)).trans ?_
      simp only [ChainRec.advisedBy, best, Bool.and_eq_true, decide_eq_true_iff]
      rfl
    · exact State.midEpochWork_notices_of_none fun c => silent (none c)
    · exact (State.midEpochWork_notices_of_one ((advises_iff c x).1 one) (silent other)).trans
        (raised _ _ _)
    · obtain ⟨c, x, y, order, e⟩ := State.midEpochWork_notices_of_both ((advises_iff .A a).1 ha) ((advises_iff .B b).1 hb)
      exact ⟨c, x, y, order, e.trans (State.raise_notices_congr (raised _ _ _)
        ((State.raise_params ..).trans (State.raise_params s _ _ _).symm) _ _ _)⟩
  · obtain ⟨tuneMap, domain, lock⟩ := (s.after k).midEpochWork_radio
    obtain ⟨_, _, _, _, _, e⟩ := (s.after k).midEpochWork_writes
    exact ⟨tuneMap, domain, lock, by rw [e]; rfl⟩

end Sys2Proof.Machine
end

section
/-! PROOFS. The association engine: which record each search of the decision order names, what a report of each
signature does to it, and the creation of a record (chapter 2, R12 to R14, R39 to R50). -/

namespace Sys2Proof.Machine

/-! ### The searches of the swept order (R41 to R44) -/

section Searches
variable {s : State} {rep : Report} {i : Nat} {r : Record} {o : OvenPart}

/-- The rhythmic ovens that pass the phase match test, with their matches (R41). -/
def State.passing (s : State) (rep : Report) : List (Nat × Record × OvenPart × PhaseMatch) :=
  (s.table.rhythmic rep.span).filterMap fun x =>
    let m := x.2.2.phaseMatch (to16 rep.start)
    if m.passes (wEff x.2.2.w x.2.1.state s.timebase.clock) then some (x.1, x.2.1, x.2.2, m) else none

theorem State.matched_eq (s : State) (rep : Report) : s.table.matched rep s.timebase.clock =
    firstBest (fun a b => decide (a.2.2.2.e16.natAbs < b.2.2.2.e16.natAbs)) (s.passing rep) := rfl

theorem State.mem_passing {m : PhaseMatch} : (i, r, o, m) ∈ s.passing rep ↔
    s.table.record i = some r ∧ r.part = .oven o ∧ r.Rhythmic o rep ∧ s.Passes rep r o
      ∧ m = o.phaseMatch (to16 rep.start) := by
  have passes : (o.phaseMatch (to16 rep.start)).passes (wEff o.w r.state s.timebase.clock) = true ↔
      s.Passes rep r o := decide_eq_true_iff
  simp only [State.passing, List.mem_filterMap, Prod.exists]
  constructor
  · rintro ⟨j, q, p, mem, found⟩
    split at found
    · next pass =>
      cases found
      obtain ⟨record, part, rhythmic⟩ := Table.mem_rhythmic.1 mem
      exact ⟨record, part, rhythmic, passes.1 pass, rfl⟩
    · cases found
  · rintro ⟨record, part, rhythmic, pass, rfl⟩
    exact ⟨i, r, o, Table.mem_rhythmic.2 ⟨record, part, rhythmic⟩, if_pos (passes.2 pass)⟩

theorem State.passing_ascending (s : State) (rep : Report) : (s.passing rep).Pairwise (fun a b => a.1 < b.1) := by
  refine List.Pairwise.filterMap _ (fun a b lt x hx y hy => ?_) (s.table.liveOvens_ascending.filter _)
  dsimp only at hx hy
  split at hx
  · split at hy
    · cases hx; cases hy; exact lt
    · cases hy
  · cases hx

/-- The oven of step 1 is the rhythmic one of smallest error that passes, the lower slot among equals (R41). -/
theorem State.matched_of_nearest (record : s.table.record i = some r) (part : r.part = .oven o)
    (rhythmic : r.Rhythmic o rep) (passes : s.Passes rep r o)
    (nearest : ∀ y ∈ s.table.records, ∀ p ∈ y.2.oven?, y.2.Rhythmic p rep → s.Passes rep y.2 p →
      o.errorOf rep < p.errorOf rep ∨ (o.errorOf rep = p.errorOf rep ∧ i ≤ y.1)) :
    s.table.matched rep s.timebase.clock = some (i, r, o, o.phaseMatch (to16 rep.start)) := by
  rw [State.matched_eq]
  refine firstBest_of_ascending (s.passing_ascending rep)
    (State.mem_passing.2 ⟨record, part, rhythmic, passes, rfl⟩) ?_
  rintro ⟨j, q, p, m⟩ mem
  obtain ⟨record', part', rhythmic', passes', rfl⟩ := State.mem_passing.1 mem
  have near := nearest (j, q) (Table.mem_records.2 record') p (Record.oven?_of_part part') rhythmic' passes'
  simp only [OvenPart.errorOf] at near
  simp only [decide_eq_false_iff_not, decide_eq_true_iff]
  omega

theorem State.matched_of_unmatched (h : s.Unmatched rep) : s.table.matched rep s.timebase.clock = none := by
  rw [State.matched_eq, firstBest_eq_none, List.eq_nil_iff_forall_not_mem]
  rintro ⟨j, q, p, m⟩ mem
  obtain ⟨record, part, rhythmic, passes, -⟩ := State.mem_passing.1 mem
  exact h (j, q) (Table.mem_records.2 record) p (Record.oven?_of_part part) rhythmic passes

/-- A report is absorbed where the on-interval of some rhythmic oven takes it (R42). -/
theorem State.absorbs_table_iff : s.table.absorbs rep s.timebase.clock = true ↔
    ∃ i r o, s.table.record i = some r ∧ r.part = .oven o ∧ r.Rhythmic o rep ∧ s.Absorbs rep r o := by
  simp only [Table.absorbs, List.any_eq_true, Prod.exists, Table.mem_rhythmic, ← s.absorbs_iff, and_assoc]

theorem State.Unsettled.unmatched (h : s.Unsettled rep) : s.Unmatched rep := fun y mem p part rhythmic =>
  (h y mem p part rhythmic).1

theorem State.absorbs_of_unsettled (h : s.Unsettled rep) : ¬ s.table.absorbs rep s.timebase.clock = true := by
  rw [State.absorbs_table_iff]
  rintro ⟨j, q, p, record, part, rhythmic, absorbs⟩
  exact (h (j, q) (Table.mem_records.2 record) p (Record.oven?_of_part part) rhythmic).2 absorbs

/-- The test of step 3 on a live oven (R43). -/
theorem Record.phaseless_iff (live : r.state ≠ .retired) :
    (r.origin == .pinned && !o.phaseKnown && r.span.overlaps rep.span) = true ↔ r.Phaseless o rep := by
  simp only [Bool.and_eq_true, beq_iff_eq, Bool.not_eq_true', Record.Phaseless, and_assoc]
  exact (and_iff_right live).symm

/-- The oven of step 3 is the lowest pinned one of unknown phase (R43). -/
theorem Table.phaseless_of_lowest {t : Table} (record : t.record i = some r) (part : r.part = .oven o)
    (phaseless : r.Phaseless o rep)
    (lowest : ∀ y ∈ t.records, ∀ p ∈ y.2.oven?, y.2.Phaseless p rep → i ≤ y.1) :
    t.phaseless rep.span = some (i, r, o) := by
  refine find?_of_ascending t.liveOvens_ascending (Table.mem_liveOvens.2 ⟨record, phaseless.1, part⟩)
    ((Record.phaseless_iff phaseless.1).2 phaseless) ?_
  rintro ⟨j, q, p⟩ mem hit
  obtain ⟨record', live, part'⟩ := Table.mem_liveOvens.1 mem
  exact lowest (j, q) (Table.mem_records.2 record') p (Record.oven?_of_part part') ((Record.phaseless_iff live).1 hit)

theorem Table.phaseless_of_none {t : Table} (h : ∀ y ∈ t.records, ∀ p ∈ y.2.oven?, ¬ y.2.Phaseless p rep) :
    t.phaseless rep.span = none := by
  refine List.find?_eq_none.2 ?_
  rintro ⟨j, q, p⟩ mem hit
  obtain ⟨record, live, part⟩ := Table.mem_liveOvens.1 mem
  exact h (j, q) (Table.mem_records.2 record) p (Record.oven?_of_part part) ((Record.phaseless_iff live).1 hit)

/-- The oldest of records in ascending order, the lower slot among equals (R3). -/
theorem Table.oldest_of {t : Table} {l : List (Nat × Record)} (asc : l.Pairwise (fun a b => a.1 < b.1)) (mem : (i, r) ∈ l)
    (oldest : ∀ y ∈ l, t.seniority y.2 < t.seniority r ∨ (t.seniority y.2 = t.seniority r ∧ i ≤ y.1)) :
    t.oldest l = some (i, r) := by
  refine firstBest_of_ascending asc mem fun y hy => ?_
  have old := oldest y hy
  simp only [decide_eq_false_iff_not, decide_eq_true_iff]
  omega

/-- The candidate of step 4 is the oldest of unknown period, the lower slot among equals (R44). -/
theorem Table.periodless_of_oldest {t : Table} (record : t.record i = some r) (part : r.part = .oven o)
    (periodless : r.Periodless o rep)
    (oldest : ∀ y ∈ t.records, ∀ p ∈ y.2.oven?, y.2.Periodless p rep →
      t.seniority y.2 < t.seniority r ∨ (t.seniority y.2 = t.seniority r ∧ i ≤ y.1)) :
    t.periodless rep.span = some (i, r) := by
  refine Table.oldest_of (t.liveRecords_ascending.filter _) (Table.mem_periodless.2 ⟨record, o, part, periodless⟩) ?_
  rintro ⟨j, q⟩ mem
  obtain ⟨record', p, part', periodless'⟩ := Table.mem_periodless.1 mem
  exact oldest (j, q) (Table.mem_records.2 record') p (Record.oven?_of_part part') periodless'

theorem Table.periodless_of_none {t : Table} (h : ∀ y ∈ t.records, ∀ p ∈ y.2.oven?, ¬ y.2.Periodless p rep) :
    t.periodless rep.span = none := by
  refine firstBest_eq_none.2 (List.eq_nil_iff_forall_not_mem.2 ?_)
  rintro ⟨j, q⟩ mem
  obtain ⟨record, p, part, periodless⟩ := Table.mem_periodless.1 mem
  exact h (j, q) (Table.mem_records.2 record) p (Record.oven?_of_part part) periodless

/-! ### The searches of network reports (R47, R49) -/

variable {t : Table} {tag : BitVec 16} {ch : Nat}

theorem Record.named_iff (live : r.state ≠ .retired) : (match r.part with
    | .neighbour tag' ch' _ => tag' == tag && ch' == ch
    | _ => false) = true ↔ r.Named tag ch := by
  unfold Record.Named Part.tag? Part.channel?
  cases r.part <;> simp [live]

theorem Table.neighbour_of_lowest (record : t.record i = some r) (named : r.Named tag ch)
    (lowest : ∀ y ∈ t.records, y.2.Named tag ch → i ≤ y.1) : t.neighbour tag ch = some (i, r) := by
  refine find?_of_ascending t.liveRecords_ascending (Table.mem_liveRecords.2 ⟨record, named.1⟩)
    ((Record.named_iff named.1).2 named) ?_
  rintro ⟨j, q⟩ mem hit
  obtain ⟨record', live⟩ := Table.mem_liveRecords.1 mem
  exact lowest (j, q) (Table.mem_records.2 record') ((Record.named_iff live).1 hit)

theorem Table.neighbour_of_none (h : ∀ y ∈ t.records, ¬ y.2.Named tag ch) : t.neighbour tag ch = none := by
  refine List.find?_eq_none.2 ?_
  rintro ⟨j, q⟩ mem hit
  obtain ⟨record, live⟩ := Table.mem_liveRecords.1 mem
  exact h (j, q) (Table.mem_records.2 record) ((Record.named_iff live).1 hit)

/-- The candidates of a steady report (R49). -/
theorem Table.mem_steadies : (i, r) ∈ t.liveRecords.filter (fun x => x.2.kind == .steady && x.2.span.overlaps rep.span) ↔
    t.record i = some r ∧ r.SteadyOver rep := by
  simp only [List.mem_filter, Table.mem_liveRecords, Bool.and_eq_true, beq_iff_eq, Record.SteadyOver, and_assoc]

theorem Table.steadyFor_of_widest (record : t.record i = some r) (steady : r.SteadyOver rep)
    (widest : ∀ y ∈ t.records, y.2.SteadyOver rep → y.2.span.overlapWidth rep.span < r.span.overlapWidth rep.span
      ∨ (y.2.span.overlapWidth rep.span = r.span.overlapWidth rep.span ∧ i ≤ y.1)) :
    t.steadyFor rep.span = some (i, r) := by
  refine firstBest_of_ascending (t.liveRecords_ascending.filter _) (Table.mem_steadies.2 ⟨record, steady⟩) ?_
  rintro ⟨j, q⟩ mem
  obtain ⟨record', steady'⟩ := Table.mem_steadies.1 mem
  have wide := widest (j, q) (Table.mem_records.2 record') steady'
  dsimp only at wide
  simp only [decide_eq_false_iff_not, decide_eq_true_iff]
  omega

theorem Table.steadyFor_of_none (h : ∀ y ∈ t.records, ¬ y.2.SteadyOver rep) : t.steadyFor rep.span = none := by
  refine firstBest_eq_none.2 (List.eq_nil_iff_forall_not_mem.2 ?_)
  rintro ⟨j, q⟩ mem
  obtain ⟨record, steady⟩ := Table.mem_steadies.1 mem
  exact h (j, q) (Table.mem_records.2 record) steady

end Searches

/-! ### A report is taken (R39) -/

section Take
variable {s : State} {rep : Report} {rest : List Report}

theorem execTakeReport_of_takes (h : s.Takes rep rest) :
    execTakeReport s = .next ((s.taken rest).applyReport rep s.timebase.clock) := by
  rw [execTakeReport, h.1, h.2]; rfl

theorem execTakeReport_of_swept (h : s.Takes rep rest) (swept : rep.signature = .swept) :
    execTakeReport s = .next ((s.taken rest).applySwept rep s.timebase.clock) := by
  rw [execTakeReport_of_takes h, State.applyReport, swept]

theorem execTakeReport_of_preamble {tag : BitVec 16} (h : s.Takes rep rest) (preamble : rep.signature = .preamble tag) :
    execTakeReport s = .next ((s.taken rest).applyPreamble rep tag) := by
  rw [execTakeReport_of_takes h, State.applyReport, preamble]

theorem execTakeReport_of_steady (h : s.Takes rep rest) (steady : rep.signature = .steady) :
    execTakeReport s = .next ((s.taken rest).applySteady rep) := by
  rw [execTakeReport_of_takes h, State.applyReport, steady]

/-! ### The steps of the swept order (R41 to R45) -/

variable {i : Nat} {r : Record} {o : OvenPart} {m : PhaseMatch}

theorem State.applySwept_of_matched (h : s.table.matched rep s.timebase.clock = some (i, r, o, m)) :
    s.applySwept rep s.timebase.clock = s.ovenHit i r o m rep := by
  rw [State.applySwept, h]

theorem State.applySwept_of_absorbed (unmatched : s.Unmatched rep) (h : s.table.absorbs rep s.timebase.clock = true) :
    s.applySwept rep s.timebase.clock = s := by
  rw [State.applySwept, State.matched_of_unmatched unmatched]
  exact if_pos h

theorem State.applySwept_of_phaseless (unsettled : s.Unsettled rep) (h : s.table.phaseless rep.span = some (i, r, o)) :
    s.applySwept rep s.timebase.clock = s.acquirePhase i r o (to16 rep.start) := by
  rw [State.applySwept, State.matched_of_unmatched unsettled.unmatched]
  refine (if_neg (State.absorbs_of_unsettled unsettled)).trans ?_
  rw [h]

section Unacquired
variable (unacquired : s.Unacquired rep)
include unacquired

theorem State.applySwept_of_periodless (part : r.part = .oven o) (h : s.table.periodless rep.span = some (i, r)) :
    s.applySwept rep s.timebase.clock = s.acquirePeriod i r o (to16 rep.start) := by
  rw [State.applySwept, State.matched_of_unmatched unacquired.1.unmatched]
  refine (if_neg (State.absorbs_of_unsettled unacquired.1)).trans ?_
  rw [Table.phaseless_of_none unacquired.2, h]
  dsimp only
  rw [Record.oven?_of_part part]

theorem State.applySwept_of_none (h : s.table.periodless rep.span = none) : s.applySwept rep s.timebase.clock =
    s.create rep.span (.oven (newOvenPart rep s.params.ovenTolerance)) := by
  rw [State.applySwept, State.matched_of_unmatched unacquired.1.unmatched]
  refine (if_neg (State.absorbs_of_unsettled unacquired.1)).trans ?_
  rw [Table.phaseless_of_none unacquired.2, h]

end Unacquired
end Take

/-- Settles O8: step 1 takes the oven of smallest error, and hits it. -/
theorem sweptReportUpdatesNearestOven : Obligations.SweptReportUpdatesNearestOven := by
  intro s rep rest i r o takes swept mem part rhythmic passes nearest m
  exact (execTakeReport_of_swept takes swept).trans (congrArg _ (State.applySwept_of_matched (s := s.taken rest)
    (State.matched_of_nearest (s := s.taken rest) (Table.mem_records.1 mem) part rhythmic passes nearest)))

/-- What an outcome of period acquisition makes of the slot (R63). -/
def State.acquired (s : State) (i : Nat) (r : Record) (o : OvenPart) (s16 : Time16) : Acquisition → State
  | .merge => s
  | .period p => State.confirm (s.putRecord i
      { r.countHit with part := .oven { o with periodKnown := true, p16 := p, a16 := s16 } }) i
  | .reanchor => s.putRecord i { r with part := .oven { o with a16 := s16 } }

/-- Period acquisition from an anchor a whole number of microseconds before (R62). -/
theorem State.acquirePeriod_of_interval (s : State) (i : Nat) (r : Record) (o : OvenPart) (s16 : Time16) {n : Int}
    (interval : (s16 - o.a16).toInt = 16 * n) : s.acquirePeriod i r o s16 = s.acquired i r o s16 (acquisitionOf n) := by
  have whole : o.intervalTo s16 = n := by
    rw [OvenPart.intervalTo, diff16, interval, Int.mul_ediv_cancel_left _ (by decide)]
  rw [State.acquirePeriod, whole]
  cases acquisitionOf n <;> rfl

/-- The acquisition of an interval, handed to what acts on it (R63). -/
theorem acquisitionOf_apply {α : Type} (f : Acquisition → α) (n : Int) : f (acquisitionOf n) =
    if n < 16000 then f .merge
    else if n ≤ 21000 then f (.period (16 * n).toNat)
    else if n < 32000 then f .reanchor
    else if n ≤ 42000 then f (.period (8 * n).toNat)
    else if n < 48000 then f .reanchor
    else if n ≤ 63000 then f (.period (roundDiv (16 * n) 3).toNat)
    else f .reanchor := by
  simp only [acquisitionOf, apply_ite f, mul_comm n]

/-- Settles O9: the steps in their order, each by its search. -/
theorem sweptReportIsAbsorbedOrAcquires : Obligations.SweptReportIsAbsorbedOrAcquires := by
  intro s rep rest i r o takes swept mem part known reanchored
  have record := Table.mem_records.1 mem
  have taken := execTakeReport_of_swept takes swept
  refine ⟨fun unmatched rhythmic absorbs => taken.trans (congrArg _ ?_), fun unsettled phaseless lowest =>
    taken.trans (congrArg _ ?_), fun n unacquired periodless oldest interval => taken.trans (congrArg _ ?_)⟩
  · exact State.applySwept_of_absorbed (s := s.taken rest) unmatched
      (State.absorbs_table_iff.2 ⟨i, r, o, record, part, rhythmic, absorbs⟩)
  · exact State.applySwept_of_phaseless (s := s.taken rest) unsettled
      (Table.phaseless_of_lowest record part phaseless lowest)
  · exact (State.applySwept_of_periodless (s := s.taken rest) unacquired part
      (Table.periodless_of_oldest record part periodless oldest)).trans
      ((State.acquirePeriod_of_interval _ i r o _ interval).trans (acquisitionOf_apply _ n))

/-- Settles O10: where every search is in vain, a record is created. -/
theorem unsettledReportCreates : Obligations.UnsettledReportCreates := by
  intro s rep rest takes
  refine ⟨fun swept unacquired none low high => (execTakeReport_of_swept takes swept).trans (congrArg _ ?_),
    fun tag preamble none => (execTakeReport_of_preamble takes preamble).trans (congrArg _ ?_),
    fun steady none => (execTakeReport_of_steady takes steady).trans (congrArg _ ?_)⟩
  · have duration : clampD rep.duration = max 1000 (min 15000 rep.duration) := by
      simp only [clampD, clampInt]; omega
    have tolerance : clampW s.params.ovenTolerance = s.params.ovenTolerance := by
      simp only [clampW, clampInt]; omega
    refine (State.applySwept_of_none (s := s.taken rest) unacquired (Table.periodless_of_none none)).trans ?_
    rw [newOvenPart, duration, show clampW (s.taken rest).params.ovenTolerance = _ from tolerance]
  · rw [State.applyPreamble, show (s.taken rest).table.neighbour _ _ = _ from Table.neighbour_of_none none]
    rfl
  · rw [State.applySteady, show (s.taken rest).table.steadyFor _ = _ from Table.steadyFor_of_none none]
    rfl

/-- The derived channel is the nearest within 1 to 14 (R47). -/
theorem derivedChannel_bounds (centre : Nat) : 1 ≤ derivedChannel centre ∧ derivedChannel centre ≤ 14
    ∧ (derivedChannel centre ≠ 1 → 10 * (derivedChannel centre : Int) - 5 ≤ 2 * ((centre : Int) - 7))
    ∧ (derivedChannel centre ≠ 14 → 2 * ((centre : Int) - 7) < 10 * (derivedChannel centre : Int) + 5) := by
  simp only [derivedChannel, clampInt, roundDiv]
  omega

theorem Part.steady_of_airtime {part : Part} {a : Airtime} (kind : part.kind = .steady) (h : part.airtime? = some a) :
    part = .steady a := by
  cases part with
  | oven o => cases kind
  | neighbour tag ch b => cases kind
  | steady b => cases h; rfl

theorem Part.neighbour_of_airtime {part : Part} {a : Airtime} {tag : BitVec 16} {ch : Nat} (htag : part.tag? = some tag)
    (hch : part.channel? = some ch) (h : part.airtime? = some a) : part = .neighbour tag ch a := by
  cases part with
  | oven o => cases h
  | neighbour tag' ch' b => cases h; cases htag; cases hch; rfl
  | steady b => cases htag

/-- Settles O7: each signature reaches its record, and the airtime update is applied to it. -/
theorem networkReportUpdatesItsRecord : Obligations.NetworkReportUpdatesItsRecord := by
  refine ⟨derivedChannel_bounds, fun s rep rest i r a takes mem airtime => ?_⟩
  have record := Table.mem_records.1 mem
  refine ⟨fun tag preamble named lowest => (execTakeReport_of_preamble takes preamble).trans (congrArg _ ?_),
    fun steady over' widest => (execTakeReport_of_steady takes steady).trans (congrArg _ ?_)⟩
  · rw [State.applyPreamble, show (s.taken rest).table.neighbour _ _ = _ from
      Table.neighbour_of_lowest record named lowest]
    show State.airtimeHit _ i r rep = _
    rw [State.airtimeHit, Part.neighbour_of_airtime named.2.1 named.2.2 airtime]
    rfl
  · rw [State.applySteady, show (s.taken rest).table.steadyFor _ = _ from
      Table.steadyFor_of_widest record over' widest]
    show State.airtimeHit _ i { r with span := r.span.unionWith rep.span } rep = _
    rw [State.airtimeHit]
    simp only [Part.steady_of_airtime over'.2.1 airtime]
    rfl

end Sys2Proof.Machine
end

section
/-! PROOFS. Taking a slot and entering a record in it (R3, R12 to R14). -/

namespace Sys2Proof.Machine

section TakeSlot
variable {t : Table} {i : Nat} {r : Record}

theorem Table.lowestFree_of (h : t.LowestFree i) : t.lowestFree = some i := by
  obtain ⟨lt, free, below⟩ := h
  rw [Table.lowestFree, List.findIdx?_eq_some_iff_getElem]
  refine ⟨lt, ?_, fun j hj => ?_⟩
  · simpa [Table.record, Table.slot, List.getD, lt] using free
  · have occupied := below j hj
    rw [Table.record, Table.slot, List.getD, List.getElem?_eq_getElem (hj.trans lt)] at occupied
    simpa [Option.isSome_iff_ne_none] using occupied

theorem Table.lowestFree_of_full (full : ∀ x ∈ t.slots, x.record.isSome = true) : t.lowestFree = none := by
  rw [Table.lowestFree, List.findIdx?_eq_none_iff]
  intro x hx
  simp [full x hx]

/-- The candidates for eviction (R12). -/
theorem Table.mem_unheld : (i, r) ∈ t.records.filter (fun x => x.2.state == .candidate && !x.2.held) ↔
    t.record i = some r ∧ r.state = .candidate ∧ r.held = false := by
  simp only [List.mem_filter, Table.mem_records, Bool.and_eq_true, beq_iff_eq, Bool.not_eq_true']

theorem Table.evictable_of (h : t.OldestCandidate i r) : t.evictable = some i := by
  obtain ⟨mem, candidate, unheld, oldest⟩ := h
  have found : t.oldest (t.records.filter fun x => x.2.state == .candidate && !x.2.held) = some (i, r) := by
    refine Table.oldest_of (t.records_ascending.filter _)
      (Table.mem_unheld.2 ⟨Table.mem_records.1 mem, candidate, unheld⟩) ?_
    rintro ⟨j, q⟩ mem'
    obtain ⟨record, candidate', unheld'⟩ := Table.mem_unheld.1 mem'
    exact oldest (j, q) (Table.mem_records.2 record) candidate' unheld'
  rw [Table.evictable, found]; rfl

theorem Table.evictable_of_none (h : ∀ y ∈ t.records, y.2.state = .candidate → y.2.held = true) :
    t.evictable = none := by
  have none : t.records.filter (fun x => x.2.state == .candidate && !x.2.held) = [] := by
    refine List.eq_nil_iff_forall_not_mem.2 ?_
    rintro ⟨j, q⟩ mem
    obtain ⟨record, candidate, unheld⟩ := Table.mem_unheld.1 mem
    rw [h (j, q) (Table.mem_records.2 record) candidate] at unheld
    cases unheld
  rw [Table.evictable, none]; rfl

theorem Table.takeSlot_of_free (h : t.LowestFree i) : t.takeSlot = some (i, t) := by
  rw [Table.takeSlot, Table.lowestFree_of h]

section Full
variable (full : ∀ x ∈ t.slots, x.record.isSome = true)
include full

theorem Table.takeSlot_of_oldest (h : t.OldestCandidate i r) : t.takeSlot = some (i, t.release i) := by
  simp only [Table.takeSlot, Table.lowestFree_of_full full, Table.evictable_of h]

theorem Table.takeSlot_of_none (h : ∀ y ∈ t.records, y.2.state = .candidate → y.2.held = true) : t.takeSlot = none :=
  Table.takeSlot_eq_none.2 ⟨Table.lowestFree_of_full full, Table.evictable_of_none h⟩

end Full

/-! ### Entering a record -/

theorem Table.slot_enter (lt : i < t.slots.length) :
    (t.enter i r).slot i = ⟨(t.slot i).gen, some { r with seq := t.seqCounter }⟩ := Table.slot_put lt

theorem Table.slot_enter_ne {j : Nat} (h : j ≠ i) : (t.enter i r).slot j = t.slot j := Table.slot_put_ne h

/-- A record that enters a FREE slot is counted in its place (R3). -/
theorem Table.counts_enter (free : t.record i = none) :
    (t.enter i r).counts = (t.counts.inc (some r.state)).dec none := by
  show (t.counts.inc (some r.state)).dec (t.slot i).state = _
  rw [Slot.state, show (t.slot i).record = none from free]; rfl

theorem Table.pinned_enter (free : t.record i = none) : (t.enter i r).pinned =
    t.pinned + if r.origin = .pinned ∧ r.state ≠ .retired then 1 else 0 := by
  have none : (t.slot i).pinnedOne = 0 := by rw [Slot.pinnedOne, show (t.slot i).record = none from free]
  show t.pinned + _ - (t.slot i).pinnedOne = _
  rw [none]; rfl

section Evicted
variable (record : t.record i = some r) (candidate : r.state = .candidate)
include record

theorem Table.record_release : (t.release i).record i = none := by
  rw [Table.record, Table.slot_release (Table.lt_of_record record)]

include candidate

theorem Table.counts_release : (t.release i).counts = (t.counts.inc none).dec (some .candidate) := by
  show (t.counts.inc none).dec (t.slot i).state = _
  rw [Slot.state, show (t.slot i).record = some r from record, Option.map_some, candidate]

omit candidate in
theorem Table.pinned_release (learned : r.origin = .learned) : (t.release i).pinned = t.pinned := by
  have one : (t.slot i).pinnedOne = 0 := by
    rw [Slot.pinnedOne, show (t.slot i).record = some r from record]
    exact if_neg (by simp [learned])
  show t.pinned + 0 - (t.slot i).pinnedOne = _
  rw [one]; rfl

end Evicted
end TakeSlot

/-- Creation where a slot can be had (R14). -/
theorem State.create_of_slot {s : State} {span : Span} {part : Part} {i : Nat} {t : Table}
    (h : s.table.takeSlot = some (i, t)) :
    s.create span part = { s with table := t.enter i (learnedRecord span part) } := by
  rw [State.create, h]

/-- Settles O11: the slot that is taken is FREE, or freed by an eviction, or there is none. -/
theorem creationTakesASlot : Obligations.CreationTakesASlot := by
  intro s span part born
  refine ⟨fun i free => ⟨_, State.create_of_slot (Table.takeSlot_of_free free), Table.slot_enter free.1,
      fun j ne => Table.slot_enter_ne ne, rfl, Table.pinned_enter free.2.1, Table.counts_enter free.2.1⟩,
    fun full => ⟨fun i r oldest counted => ?_, fun none => ?_⟩⟩
  · have record := Table.mem_records.1 oldest.1
    have lt := Table.lt_of_record record
    have freed := Table.record_release record
    refine ⟨_, State.create_of_slot (Table.takeSlot_of_oldest full oldest), ?_, fun j ne => ?_, rfl, ?_, fun learned => ?_⟩
    · rw [Table.slot_enter (by rwa [Table.release, Table.length_replace]), Table.slot_release lt]; rfl
    · rw [Table.slot_enter_ne ne, Table.slot_release_ne ne]
    · rw [Table.counts_enter freed, Table.counts_release record oldest.2.1]
      simp only [learnedRecord, StateCounts.inc, StateCounts.dec]
      rw [Nat.sub_add_cancel counted]; rfl
    · rw [Table.pinned_enter freed, Table.pinned_release record learned]; rfl
  · rw [State.create, Table.takeSlot_of_none full none]

end Sys2Proof.Machine
end

section
/-! PROOFS. The window predictor: queries and PREVIEW, the arbiter, the snapshot, and the answers (R83 to R93, R101 to
R104, R210). -/

namespace Sys2Proof.Machine

/-! ### Queries and PREVIEW (R83, R85, R88, R103) -/

/-- The fields of a control byte that names a chain (R83, R207). -/
theorem windowAskOf_of_chain {control : Byte} {c : Chain} (h : control.toNat % 4 = (chainByte c).toNat)
    (offset duration horizonLow : Nat) : windowAskOf control offset duration horizonLow =
      { chain := some c, offset := offset, d := max 1 (min 16000 duration)
        h := max 1 (min 100000 ((if control.toNat < 128 then 0 else 65536) + horizonLow)) } := by
  have code : control &&& 0x03 = chainByte c := BitVec.eq_of_toNat_eq ((toNat_chainCode control).trans h)
  have high : (if control.getLsbD 7 then 65536 else 0) = if control.toNat < 128 then 0 else 65536 := by
    have bit : control.getLsbD 7 = decide (128 ≤ control.toNat) := BitVec.msb_eq_decide control
    rw [bit]
    by_cases below : control.toNat < 128
    · simp [below]
    · simp [below, not_lt.1 below]
  rw [windowAskOf, code, chainOf_chainByte, high]
  rfl

section Query
variable {s : State} {frame : List Byte} {tag : Byte} {ask : WindowAsk} {c : Chain}

theorem execQueryArrival_of_room (h : queryOf frame = some (tag, ask)) (chain : ask.chain = some c)
    (room : s.predictor.queue.length < 4) : execQueryArrival frame s = .next (State.handOver
      { s with predictor := { s.predictor with queue := s.predictor.queue ++
        [{ tag := tag, chain := c, arrival := s.now, t0 := s.now + BitVec.ofNat 32 ask.offset, d := ask.d, h := ask.h }] } }) := by
  simp only [execQueryArrival, h, chain]
  exact if_pos room

theorem execQueryArrival_of_full (h : queryOf frame = some (tag, ask)) (chain : ask.chain = some c)
    (full : 4 ≤ s.predictor.queue.length) :
    execQueryArrival frame s = .next { s with predictor := s.predictor.leave (refusedAnswer tag) } := by
  simp only [execQueryArrival, h, chain]
  exact if_neg (not_lt.2 full)

end Query

/-- Settles O28: a query that names a chain is queued while there is room. -/
theorem queryAcceptedOrRefused : Obligations.QueryAcceptedOrRefused := by
  intro s tag b o1 o0 d1 d0 h1 h0 more c chain high q
  have fields : queryOf (tag :: b :: o1 :: o0 :: d1 :: d0 :: h1 :: h0 :: more) = some (tag,
      { chain := some c, offset := o1.toNat * 256 + o0.toNat
        d := max 1 (min 16000 (d1.toNat * 256 + d0.toNat))
        h := max 1 (min 100000 (high + (h1.toNat * 256 + h0.toNat))) }) := by
    rw [queryOf, windowAskOf_of_chain chain, valueOf_pair, valueOf_pair, valueOf_pair]
  rw [← Nat.add_assoc] at fields
  exact ⟨execQueryArrival_of_room fields rfl, execQueryArrival_of_full fields rfl⟩

section Arbiter
variable {s : State}

theorem State.handOver_of_query (idle : s.predictor.engine = .idle) {q : Query} {rest : List Query}
    (queue : s.predictor.queue = q :: rest) :
    s.handOver = s.beginEvaluation .scheduler q.chain q.arrival q.t0 q.d q.h := by
  rw [State.handOver, idle, queue]

theorem State.handOver_of_preview (idle : s.predictor.engine = .idle) (queue : s.predictor.queue = []) {p : PreviewReq}
    (preview : s.predictor.preview = some p) :
    s.handOver = s.beginEvaluation .preview p.chain p.arrival p.t0 p.d p.h := by
  rw [State.handOver, idle, queue, preview]

theorem State.handOver_of_nothing (idle : s.predictor.engine = .idle) (queue : s.predictor.queue = [])
    (preview : s.predictor.preview = none) : s.handOver = s := by
  rw [State.handOver, idle, queue, preview]

/-- The PREVIEW that a request's bytes ask for, stamped with its entry into EXECUTION (R103). -/
def State.previewOf (s : State) (c : Chain) (b o1 o0 d1 d0 h1 h0 : Byte) : PreviewReq :=
  { chain := c, arrival := s.link.entered, t0 := s.link.entered + BitVec.ofNat 32 (o1.toNat * 256 + o0.toNat)
    d := max 1 (min 16000 (d1.toNat * 256 + d0.toNat))
    h := max 1 (min 100000 ((if b.toNat < 128 then 0 else 65536) + h1.toNat * 256 + h0.toNat)) }

section Preview
variable {b o1 o0 d1 d0 h1 h0 : Byte} (executing : s.Executing 0x51 [b, o1, o0, d1, d0, h1, h0])
  (waits : s.predictor.preview = none)
include executing waits

theorem execPreview_of_no_chain (h : 2 ≤ b.toNat % 4) : execPreview s = .next (s.finish [0x01]) := by
  simp only [execPreview, show s.request previewCode = _ from executing.request, waits,
    windowAskOf_chain_eq_none_iff.2 h]
  rfl

theorem execPreview_of_chain {c : Chain} (h : b.toNat % 4 = (chainByte c).toNat) : execPreview s = .next (State.handOver
    { s with predictor := { s.predictor with preview := some (s.previewOf c b o1 o0 d1 d0 h1 h0) } }) := by
  simp only [execPreview, show s.request previewCode = _ from executing.request, waits, windowAskOf_of_chain h,
    valueOf_pair, State.previewOf, Nat.add_assoc]

end Preview
end Arbiter

/-- Settles O30: the arbiter takes queries before a PREVIEW, and an idle engine alone. -/
theorem engineIsHandedOut : Obligations.EngineIsHandedOut := by
  refine fun s => ⟨rfl, fun idle => ⟨fun q rest queue => State.handOver_of_query idle queue, fun p queue preview =>
      State.handOver_of_preview idle queue preview, State.handOver_of_nothing idle⟩,
    fun client n f engine => State.handOver_of_busy engine, fun b o1 o0 d1 d0 h1 h0 executing waits =>
      ⟨execPreview_of_no_chain executing waits, fun c chain => execPreview_of_chain executing waits chain⟩⟩

/-! ### Delivery (R87, R101, R104, R210) -/

section Delivery
variable {s : State} {n : Snapshot} {f : Finding}

/-- A finding for a chain that still stands on its snapshot channel is kept (R101). -/
theorem Finding.checked_of_stands {x : ChainRec} (stands : x.state = .ready ∧ x.present = n.present) :
    f.checked n x = f := by
  cases f with
  | notReady => rfl
  | none g => exact if_pos stands
  | window off free g => exact if_pos stands

theorem Finding.checked_of_not_ready {x : ChainRec} (h : f = .notReady ∨ ¬ (x.state = .ready ∧ x.present = n.present)) :
    f.checked n x = .notReady := by
  cases f with
  | notReady => rfl
  | none g => exact if_neg (h.resolve_left nofun)
  | window off free g => exact if_neg (h.resolve_left nofun)

theorem execDelivery_of_scheduler {q : Query} {rest : List Query} (engine : s.predictor.engine = .evaluating .scheduler n f)
    (queue : s.predictor.queue = q :: rest) {g : Finding} (checked : f.checked n (s.chain n.chain) = g) :
    execDelivery s = .next (State.handOver { s with predictor := { s.predictor with
      queue := rest, engine := .idle, answers := s.predictor.answers ++ [g.answer q.tag] } }) := by
  simp only [execDelivery, engine, queue, checked]
  rfl

theorem execDelivery_of_preview (engine : s.predictor.engine = .evaluating .preview n f) {g : Finding}
    (checked : f.checked n (s.chain n.chain) = g) : execDelivery s = .next (State.handOver (State.finish
      { s with predictor := { s.predictor with preview := none, engine := .idle } } (g.previewBytes n))) := by
  simp only [execDelivery, engine, checked]

end Delivery

theorem bytesOf_one (v : Nat) : bytesOf 1 v = [byteOf v] := by simp [bytesOf]

/-- The result of a PREVIEW that finds nothing (R104). -/
theorem Finding.previewBytes_none (n : Snapshot) (g : Nat) : (Finding.none g).previewBytes n = [0x0B]
    ++ List.replicate 6 0 ++ bytesOf 1 g ++ bytesOf 1 n.ovens.length ++ bytesOf 1 n.leftOut ++ bytesOf 1 n.load := by
  simp [Finding.previewBytes, Finding.answer, Finding.previewExtras, bytesOf_one, bytesOf_three]
  exact ⟨rfl, rfl⟩

/-- The result of a PREVIEW that finds a window (R104). -/
theorem Finding.previewBytes_window (n : Snapshot) (off free g : Nat) : (Finding.window off free g).previewBytes n = [0x11]
    ++ bytesOf 3 off ++ bytesOf 3 free ++ bytesOf 1 g ++ bytesOf 1 n.ovens.length ++ bytesOf 1 n.leftOut
    ++ bytesOf 1 n.load := by
  simp only [Finding.previewBytes, Finding.answer, Finding.previewExtras, bytesOf_one]
  simp only [List.append_assoc]
  rfl

/-- Settles O34: the check turns a finding or keeps it, and it leaves by its client. -/
theorem answersLeaveInOrder : Obligations.AnswersLeaveInOrder := by
  refine fun s => ⟨fun n f q rest engine queue => ?_, fun n f engine => ?_, fun a rest answers => ?_⟩
  · have leaves := fun g => execDelivery_of_scheduler (g := g) engine queue
    refine ⟨fun turned => leaves _ (Finding.checked_of_not_ready turned), fun g found stands => ?_,
      fun off free g found stands => ?_⟩
    · exact leaves (.none g) ((Finding.checked_of_stands stands).trans found)
    · exact leaves (.window off free g) ((Finding.checked_of_stands stands).trans found)
  · have ends := fun g => execDelivery_of_preview (g := g) engine
    refine ⟨fun turned => ends _ (Finding.checked_of_not_ready turned), fun g found stands => ?_,
      fun off free g found stands => ?_⟩
    · rw [← Finding.previewBytes_none]
      exact ends (.none g) ((Finding.checked_of_stands stands).trans found)
    · rw [← Finding.previewBytes_window]
      exact ends (.window off free g) ((Finding.checked_of_stands stands).trans found)
  · show execAnswerFrameSent s = _
    rw [execAnswerFrameSent, answers, bytesOf_one]
    rfl

/-! ### The snapshot (R91, R93) -/

/-- An oven stands before another by its hits, and by its slot among equal hits (R93). -/
def KeptBefore (x y : Nat × Record × OvenPart) : Prop :=
  y.2.1.hits < x.2.1.hits ∨ (y.2.1.hits = x.2.1.hits ∧ x.1 < y.1)

theorem insertByHits_perm (x : Nat × Record × OvenPart) (l : List (Nat × Record × OvenPart)) :
    (insertByHits x l).Perm (x :: l) := by
  induction l with
  | nil => exact .refl _
  | cons y l ih =>
    unfold insertByHits
    split
    · exact .refl _
    · exact (ih.cons y).trans (.swap x y l)

theorem insertByHits_sorted {x : Nat × Record × OvenPart} {l : List (Nat × Record × OvenPart)}
    (sorted : l.Pairwise KeptBefore) (lower : ∀ y ∈ l, x.1 < y.1) : (insertByHits x l).Pairwise KeptBefore := by
  induction l with
  | nil => exact List.pairwise_singleton _ _
  | cons y l ih =>
    obtain ⟨first, rest⟩ := List.pairwise_cons.1 sorted
    unfold insertByHits
    split
    · next least =>
      refine List.pairwise_cons.2 ⟨fun z hz => ?_, sorted⟩
      have below := lower z hz
      rcases List.mem_cons.1 hz with rfl | hz
      · unfold KeptBefore; omega
      · have := first z hz
        unfold KeptBefore at this ⊢
        omega
    · next more =>
      refine List.pairwise_cons.2 ⟨fun z hz => ?_, ih rest fun z hz => lower z (List.mem_cons_of_mem _ hz)⟩
      rcases List.mem_cons.1 ((insertByHits_perm x l).mem_iff.1 hz) with rfl | hz
      · exact .inl (not_le.1 more)
      · exact first z hz

theorem foldr_insertByHits_perm (l : List (Nat × Record × OvenPart)) : (l.foldr insertByHits []).Perm l := by
  induction l with
  | nil => exact .refl _
  | cons x l ih => exact (insertByHits_perm x _).trans (ih.cons x)

theorem foldr_insertByHits_sorted {l : List (Nat × Record × OvenPart)} (asc : l.Pairwise fun a b => a.1 < b.1) :
    (l.foldr insertByHits []).Pairwise KeptBefore := by
  induction l with
  | nil => exact .nil
  | cons x l ih =>
    obtain ⟨lower, rest⟩ := List.pairwise_cons.1 asc
    exact insertByHits_sorted (ih rest) fun y hy => lower y ((foldr_insertByHits_perm l).mem_iff.1 hy)

/-- The ovens that are kept, and those that are left out (R93). -/
theorem keptOvens_split {l : List (Nat × Record × OvenPart)} (asc : l.Pairwise fun a b => a.1 < b.1) :
    ∃ left, (keptOvens l ++ left).Perm l ∧ (keptOvens l).length ≤ 8 ∧ (left ≠ [] → (keptOvens l).length = 8)
      ∧ (∀ x ∈ left, ∀ y ∈ keptOvens l, KeptBefore y x) ∧ l.length - 8 = left.length := by
  unfold keptOvens ovenCapacity
  split
  · next few => exact ⟨[], by simp, few, by simp, by simp, by simp; omega⟩
  · next many =>
    have perm := foldr_insertByHits_perm l
    have length := perm.length_eq
    have sorted := foldr_insertByHits_sorted asc
    rw [← List.take_append_drop 8 (l.foldr insertByHits []), List.pairwise_append] at sorted
    refine ⟨(l.foldr insertByHits []).drop 8, by rwa [List.take_append_drop], List.length_take_le _ _, fun _ => ?_,
      fun x hx y hy => sorted.2.2 y hy x hx, ?_⟩
    · rw [List.length_take]; omega
    · rw [List.length_drop]; omega

theorem Table.relevantOvens_ascending (t : Table) (span : Span) :
    (t.relevantOvens span).Pairwise fun a b => a.1 < b.1 := by
  refine List.Pairwise.filterMap _ (fun a b lt x hx y hy => ?_) t.records_ascending
  obtain ⟨_, -, rfl⟩ := Option.map_eq_some_iff.1 hx
  obtain ⟨_, -, rfl⟩ := Option.map_eq_some_iff.1 hy
  exact lt

theorem Table.mem_relevantOvens {t : Table} {lo hi i : Nat} {r : Record} {o : OvenPart} :
    (i, r, o) ∈ t.relevantOvens ⟨lo, hi⟩ ↔ t.record i = some r ∧ r.part = .oven o ∧ r.Over lo hi
      ∧ o.periodKnown = true ∧ o.phaseKnown = true := by
  have relevant (q : Record) (p : OvenPart) : q.relevantOven ⟨lo, hi⟩ = some p ↔
      q.part = .oven p ∧ q.Over lo hi ∧ p.periodKnown = true ∧ p.phaseKnown = true := by
    rw [← Record.over_iff]
    unfold Record.relevantOven
    cases h : q.oven? with
    | none =>
      have no : q.part ≠ .oven p := fun e => by simp [Record.oven?_of_part e] at h
      simp [no]
    | some p' =>
      have part := Record.oven?_eq_some.1 h
      simp only [part, Part.oven.injEq, Bool.and_eq_true]
      constructor
      · intro found
        split at found
        · next all => cases found; tauto
        · cases found
      · rintro ⟨rfl, all⟩
        exact if_pos (by tauto)
  simp only [Table.relevantOvens, List.mem_filterMap, Option.map_eq_some_iff, Prod.exists, Prod.mk.injEq, relevant,
    Table.mem_records]
  constructor
  · rintro ⟨j, q, record, p, rest, rfl, rfl, rfl⟩
    exact ⟨record, rest⟩
  · rintro ⟨record, rest⟩
    exact ⟨i, r, record, o, rest, rfl, rfl, rfl⟩

section Snapshot
variable {s : State} {c : Chain}

theorem State.snapshot_of_absent (h : (s.chain c).present = none) : s.snapshot c =
    { chain := c, state := (s.chain c).state, present := none, clock := s.timebase.clock, ovens := [], leftOut := 0,
      load := 0, guardTime := s.params.guardTime } := by
  simp only [State.snapshot, h]

theorem State.snapshot_of_present {ch : Nat} (h : (s.chain c).present = some ch) : s.snapshot c =
    { chain := c, state := (s.chain c).state, present := some ch, clock := s.timebase.clock
      ovens := (keptOvens (s.table.relevantOvens (channelSpan ch))).map fun y =>
        { a16 := y.2.2.a16, p16 := y.2.2.p16, d := y.2.2.d, wEff := wEff y.2.2.w y.2.1.state s.timebase.clock }
      leftOut := (s.table.relevantOvens (channelSpan ch)).length - 8
      load := s.table.networkLoad (channelSpan ch), guardTime := s.params.guardTime } := by
  simp only [State.snapshot, h]
  rfl

end Snapshot

/-- Settles O31: the relevant ovens are split by hits and slot into those kept and those left out. -/
theorem snapshotKeepsTheRelevantOvens : Obligations.SnapshotKeepsTheRelevantOvens := by
  intro s c n
  cases present : (s.chain c).present with
  | none =>
    have e : n = _ := State.snapshot_of_absent present
    rw [e]
    exact ⟨rfl, rfl, rfl, rfl, rfl, fun _ => ⟨rfl, rfl, rfl⟩, nofun⟩
  | some ch =>
    have e : n = _ := State.snapshot_of_present present
    rw [e]
    refine ⟨rfl, rfl, rfl, rfl, rfl, nofun, ?_⟩
    intro _ same _ _
    cases Option.some.inj same
    dsimp only
    rw [channelSpan_eq, Table.networkLoad_eq]
    have asc := s.table.relevantOvens_ascending ⟨if ch = 14 then 74 else 5 * ch - 3, if ch = 14 then 94 else 5 * ch + 17⟩
    obtain ⟨left, perm, few, full, before, count⟩ := keptOvens_split asc
    refine ⟨rfl, _, left, ?_, fun i r o => perm.mem_iff.trans Table.mem_relevantOvens, few, full, before, count, rfl⟩
    have distinct : (s.table.relevantOvens _).Pairwise fun a b => a.1 ≠ b.1 := asc.imp fun lt => lt.ne
    exact (perm.map _).nodup_iff.2 (List.pairwise_map.2 distinct)

end Sys2Proof.Machine
end

section
/-! PROOFS. The search for a window: the forbidden intervals of an oven in ascending order, the passes of R97, and the
free length (R94 to R101). -/

namespace Sys2Proof.Machine

/-! ### The intervals of one oven (R95, R97) -/

section Oven
variable {o : SnapOven} {t0 : Time} {g : Nat}

/-- The lower edges before a position are those of the intervals up to the last one. -/
theorem SnapOven.lower_lt_iff (period : 0 < o.p16) {pos k : Int} :
    o.lower t0 g k < pos ↔ k ≤ o.lastBefore t0 g pos := by
  have period : (0 : Int) < o.p16 := Int.natCast_pos.2 period
  rw [SnapOven.lastBefore, Int.le_ediv_iff_mul_le period, SnapOven.lower]
  generalize k * (o.p16 : Int) = x
  omega

theorem SnapOven.lower_mono {k l : Int} (h : k ≤ l) : o.lower t0 g k ≤ o.lower t0 g l := by
  have := Int.mul_le_mul_of_nonneg_right h (Int.natCast_nonneg o.p16)
  simp only [SnapOven.lower]
  omega

theorem SnapOven.upper_mono {k l : Int} (h : k ≤ l) : o.upper t0 g k ≤ o.upper t0 g l := by
  have := Int.mul_le_mul_of_nonneg_right h (Int.natCast_nonneg o.p16)
  simp only [SnapOven.upper, ceilDiv]
  omega

/-- A window from `t` of length `d` overlaps none of the oven's intervals. -/
def SnapOven.Spares (o : SnapOven) (t0 : Time) (g : Nat) (t : Int) (d : Nat) : Prop :=
  ∀ k : Int, t + d ≤ o.lower t0 g k ∨ o.upper t0 g k ≤ t

variable {t : Int} {d : Nat} (period : 0 < o.p16)
include period

/-- The last interval that begins before the window is over decides. -/
theorem SnapOven.spares_iff : o.Spares t0 g t d ↔ o.upper t0 g (o.lastBefore t0 g (t + d)) ≤ t := by
  constructor
  · intro spares
    exact (spares _).resolve_left (not_le.2 ((SnapOven.lower_lt_iff period).2 le_rfl))
  · intro past k
    rcases lt_or_ge (o.lower t0 g k) (t + d) with begins | later
    · exact .inr ((SnapOven.upper_mono ((SnapOven.lower_lt_iff period).1 begins)).trans past)
    · exact .inl later

theorem SnapOven.blocks_eq_none : o.blocks t0 g t d = none ↔ o.Spares t0 g t d := by
  rw [SnapOven.spares_iff period, SnapOven.blocks]
  split
  · next blocked => simp [blocked]
  · next free => simp [not_lt.1 free]

/-- A blocked window stays blocked until the upper edge that blocks it (R97). -/
theorem SnapOven.blocks_eq_some {u : Int} (h : o.blocks t0 g t d = some u) :
    t < u ∧ ∀ v, t ≤ v → v < u → ¬ o.Spares t0 g v d := by
  rw [SnapOven.blocks] at h
  split at h
  · next blocked =>
    cases h
    refine ⟨blocked, fun v from' until' spares => ?_⟩
    have begins := (SnapOven.lower_lt_iff (t0 := t0) (g := g) period).2 (le_refl (o.lastBefore t0 g (t + d)))
    rcases spares (o.lastBefore t0 g (t + d)) with late | early <;> omega
  · cases h

end Oven

/-! ### The passes (R97) -/

section Search
variable {n : Snapshot} {t0 : Time} {d h : Nat} (periods : ∀ o ∈ n.ovens, 0 < o.p16)

theorem Snapshot.clear_iff {t : Int} : n.Clear t0 t d ↔ ∀ o ∈ n.ovens, o.Spares t0 n.guardTime t d := by
  simp only [Snapshot.Clear, SnapOven.lowerEdge_eq, SnapOven.upperEdge_eq, SnapOven.Spares]

include periods

theorem Snapshot.blocked_eq_none {t : Int} : n.blocked t0 t d = none ↔ n.Clear t0 t d := by
  rw [Snapshot.blocked, List.max?_eq_none_iff, Snapshot.clear_iff, List.filterMap_eq_nil_iff]
  exact forall₂_congr fun o mem => SnapOven.blocks_eq_none (periods o mem)

theorem Snapshot.blocked_eq_some {t u : Int} (blocked : n.blocked t0 t d = some u) :
    t < u ∧ ∀ v, t ≤ v → v < u → ¬ n.Clear t0 v d := by
  obtain ⟨o, mem, blocks⟩ := List.mem_filterMap.1 (List.max?_mem blocked)
  obtain ⟨later, until'⟩ := SnapOven.blocks_eq_some (periods o mem) blocks
  exact ⟨later, fun v from' before clear => until' v from' before (Snapshot.clear_iff.1 clear o mem)⟩

/-- What the search finds is clear and within the horizon, and nothing before it is clear. -/
theorem Snapshot.search_eq_some {fuel : Nat} {t u : Int} (found : n.search t0 d h fuel t = some u) :
    t ≤ u ∧ u + d ≤ h ∧ n.Clear t0 u d ∧ ∀ v, t ≤ v → v < u → ¬ n.Clear t0 v d := by
  induction fuel generalizing t with
  | zero => cases found
  | succ fuel ih =>
    rw [Snapshot.search] at found
    split at found
    · cases found
    next within =>
    split at found
    · next w blocked =>
      obtain ⟨later, unclear⟩ := Snapshot.blocked_eq_some periods blocked
      obtain ⟨low, inside, clear, first⟩ := ih found
      refine ⟨later.le.trans low, inside, clear, fun v from' before => ?_⟩
      rcases lt_or_ge v w with early | late
      · exact unclear v from' early
      · exact first v late before
    · next blocked =>
      cases found
      exact ⟨le_rfl, not_lt.1 within, (Snapshot.blocked_eq_none periods).1 blocked, fun v from' before =>
        absurd before (not_lt.2 from')⟩

/-- Each pass moves the start later, so the passes up to the horizon find what there is. -/
theorem Snapshot.search_eq_none {fuel : Nat} {t : Int} (enough : (h : Int) + 1 - t ≤ fuel)
    (none : n.search t0 d h fuel t = none) : ∀ v, t ≤ v → v + d ≤ h → ¬ n.Clear t0 v d := by
  induction fuel generalizing t with
  | zero => intro v from' inside; omega
  | succ fuel ih =>
    rw [Snapshot.search] at none
    split at none
    · intro v from' inside; omega
    · split at none
      · next w blocked =>
        obtain ⟨later, unclear⟩ := Snapshot.blocked_eq_some periods blocked
        intro v from' inside
        rcases lt_or_ge v w with early | late
        · exact unclear v from' early
        · exact ih (by omega) none v late inside
      · cases none

end Search

/-! ### The free length (R99) -/

theorem foldl_min_le (l : List Int) (x : Int) : l.foldl min x ≤ x ∧ ∀ y ∈ l, l.foldl min x ≤ y := by
  induction l generalizing x with
  | nil => simp
  | cons z l ih =>
    obtain ⟨least, all⟩ := ih (min x z)
    rw [List.foldl_cons]
    refine ⟨least.trans (min_le_left ..), fun y hy => ?_⟩
    rcases List.mem_cons.1 hy with rfl | hy
    · exact least.trans (min_le_right ..)
    · exact all y hy

theorem foldl_min_mem (l : List Int) (x : Int) : l.foldl min x = x ∨ l.foldl min x ∈ l := by
  induction l generalizing x with
  | nil => simp
  | cons z l ih =>
    rw [List.foldl_cons]
    rcases ih (min x z) with e | mem
    · rw [e]
      rcases min_choice x z with e | e <;> simp [e]
    · exact .inr (List.mem_cons_of_mem _ mem)

section FreeEnd
variable {n : Snapshot} {t0 : Time} {d h : Nat} {t : Int} (periods : ∀ o ∈ n.ovens, 0 < o.p16)

theorem Snapshot.freeEnd_le : n.freeEnd t0 d h t ≤ h := (foldl_min_le _ _).1

theorem Snapshot.freeEnd_cases : n.freeEnd t0 d h t = h
    ∨ ∃ o ∈ n.ovens, ∃ k : Int, n.freeEnd t0 d h t = o.lower t0 n.guardTime k := by
  rcases foldl_min_mem (n.ovens.map fun o => o.lower t0 n.guardTime (o.lastBefore t0 n.guardTime (t + d) + 1)) h
    with e | mem
  · exact .inl e
  · obtain ⟨o, ho, e⟩ := List.mem_map.1 mem
    exact .inr ⟨o, ho, _, e.symm⟩

include periods

/-- The free length reaches at most to every lower edge that the window ends before (R99). -/
theorem Snapshot.freeEnd_le_lower {o : SnapOven} (mem : o ∈ n.ovens) {k : Int}
    (later : t + d ≤ o.lower t0 n.guardTime k) : n.freeEnd t0 d h t ≤ o.lower t0 n.guardTime k := by
  have after : o.lastBefore t0 n.guardTime (t + d) + 1 ≤ k :=
    not_le.1 fun early => not_lt.2 later ((SnapOven.lower_lt_iff (periods o mem)).2 early)
  exact ((foldl_min_le _ _).2 _ (List.mem_map_of_mem mem)).trans (SnapOven.lower_mono after)

theorem Snapshot.le_freeEnd (inside : t + d ≤ h) : t + d ≤ n.freeEnd t0 d h t := by
  rcases foldl_min_mem (n.ovens.map fun o => o.lower t0 n.guardTime (o.lastBefore t0 n.guardTime (t + d) + 1)) h
    with e | mem
  · rw [Snapshot.freeEnd, e]; exact inside
  · obtain ⟨o, ho, e⟩ := List.mem_map.1 mem
    rw [Snapshot.freeEnd, ← e]
    exact not_lt.1 fun early =>
      absurd ((SnapOven.lower_lt_iff (periods o ho)).1 early) (by omega)

end FreeEnd

/-! ### What an evaluation finds (R94, R100) -/

section Evaluate
variable {n : Snapshot} {arrival t0 : Time} {d h : Nat} (ready : n.state = .ready)
include ready

theorem Snapshot.evaluate_of_none (none : n.search t0 d h (h + 1) 0 = none) :
    n.evaluate arrival t0 d h = .none (riskGrade n.load) := by
  simp only [Snapshot.evaluate, ready, none]
  rfl

theorem Snapshot.evaluate_of_found {t : Int} (found : n.search t0 d h (h + 1) 0 = some t) : n.evaluate arrival t0 d h =
    .window ((t0 - arrival).toNat + t.toNat) (n.freeEnd t0 d h t - t).toNat (riskGrade n.load) := by
  simp only [Snapshot.evaluate, ready, found]
  rfl

/-- A window comes from the search. -/
theorem Snapshot.evaluate_eq_window {off free g : Nat} (h' : n.evaluate arrival t0 d h = .window off free g) :
    ∃ t : Int, n.search t0 d h (h + 1) 0 = some t ∧ off = (t0 - arrival).toNat + t.toNat
      ∧ free = (n.freeEnd t0 d h t - t).toNat ∧ g = gradeOf n.load := by
  cases found : n.search t0 d h (h + 1) 0 with
  | none => rw [Snapshot.evaluate_of_none ready found] at h'; cases h'
  | some t =>
    rw [Snapshot.evaluate_of_found ready found] at h'
    cases h'
    exact ⟨t, rfl, rfl, rfl, rfl⟩

/-- NONE comes from the search. -/
theorem Snapshot.evaluate_eq_none {g : Nat} (h' : n.evaluate arrival t0 d h = .none g) :
    n.search t0 d h (h + 1) 0 = none ∧ g = gradeOf n.load := by
  cases found : n.search t0 d h (h + 1) 0 with
  | none => rw [Snapshot.evaluate_of_none ready found] at h'; cases h'; exact ⟨rfl, rfl⟩
  | some t => rw [Snapshot.evaluate_of_found ready found] at h'; cases h'

end Evaluate

/-- Settles O32: the window found is clear, and its free length reaches to the next lower edge or the horizon. -/
theorem windowCarriesItsFreeLength : Obligations.WindowCarriesItsFreeLength := by
  intro n arrival t0 d h off free g ready periods window
  obtain ⟨t, found, rfl, rfl, grade⟩ := Snapshot.evaluate_eq_window ready window
  obtain ⟨low, inside, clear, -⟩ := Snapshot.search_eq_some periods found
  lift t to Nat using low
  have least := Snapshot.le_freeEnd (t0 := t0) periods inside
  have most := n.freeEnd_le (t0 := t0) (d := d) (h := h) (t := t)
  have reach : (t + (n.freeEnd t0 d h t - t).toNat : Int) = n.freeEnd t0 d h t := by omega
  refine ⟨grade, t, by omega, by simp, clear, by omega, by omega, fun o mem k later => ?_, ?_⟩
  · rw [SnapOven.lowerEdge_eq] at later ⊢
    rw [reach]
    exact Snapshot.freeEnd_le_lower periods mem later
  · rcases Snapshot.freeEnd_cases (n := n) (t0 := t0) (d := d) (h := h) (t := t) with e | ⟨o, mem, k, e⟩
    · exact .inl (by omega)
    · exact .inr ⟨o, mem, k, by rw [SnapOven.lowerEdge_eq, reach, e]⟩

/-- Settles O33: the search is sound and complete up to the horizon. -/
theorem windowIsEarliest : Obligations.WindowIsEarliest := by
  intro n arrival t0 d h
  refine ⟨fun notReady => if_pos notReady, fun ready periods => ⟨fun off free g window => ?_, fun g none => ?_, ?_⟩⟩
  · obtain ⟨t, found, rfl, -, grade⟩ := Snapshot.evaluate_eq_window ready window
    obtain ⟨low, inside, clear, first⟩ := Snapshot.search_eq_some periods found
    lift t to Nat using low
    exact ⟨grade, t, by simp, by omega, clear, fun u before => first u (by omega) (by omega)⟩
  · obtain ⟨none, grade⟩ := Snapshot.evaluate_eq_none ready none
    exact ⟨grade, fun t inside => Snapshot.search_eq_none periods (by omega) none t (by omega) (by omega)⟩
  · cases found : n.search t0 d h (h + 1) 0 with
    | none => rw [Snapshot.evaluate_of_none ready found]; nofun
    | some t => rw [Snapshot.evaluate_of_found ready found]; nofun

end Sys2Proof.Machine
end

section
/-! PROOFS. Sweeps: the codes of a filter, what a filter accepts, and an examination slot by slot (R192 to R195). -/

namespace Sys2Proof.Machine

/-! ### The codes of a filter (R192, 12.1) -/

theorem kindFilterOf_eq (b : Byte) :
    kindFilterOf b = [none, some Kind.oven, some .neighbour, some .steady][b.toNat]? := by
  revert b; decide

theorem sweepFieldOf_eq (b : Byte) : sweepFieldOf b = ([none, some SweepField.spanLow, some .spanHigh, some .hits,
    some .share, some .period, some .channel, some .tag, some .idle][b.toNat]?).join := by
  revert b; decide

theorem sweepCondOf_eq (b : Byte) : sweepCondOf b = [SweepCond.equal, .atMost, .atLeast][b.toNat]? := by
  revert b; decide

theorem kindFilterOf_eq_none {b : Byte} (h : 3 < b.toNat) : kindFilterOf b = none := by
  rw [kindFilterOf_eq]; exact List.getElem?_eq_none h

theorem sweepFieldOf_eq_none {b : Byte} (h : b.toNat = 0 ∨ 8 < b.toNat) : sweepFieldOf b = none := by
  rw [sweepFieldOf_eq]
  rcases h with h | h
  · rw [h]; rfl
  · rw [List.getElem?_eq_none (by exact h)]; rfl

theorem sweepCondOf_eq_none {b : Byte} (h : 2 < b.toNat) : sweepCondOf b = none := by
  rw [sweepCondOf_eq]; exact List.getElem?_eq_none h

/-- The states of a state byte, with RETIRED skipped by bit 7 (R192, R207). -/
theorem mem_sweepStatesOf (st : Byte) (x : RecState) : x ∈ sweepStatesOf st ↔ match x with
    | .candidate => st.getLsbD 0 = true
    | .tracked => st.getLsbD 1 = true
    | .coasting => st.getLsbD 2 = true
    | .retired => st.getLsbD 3 = true ∧ st.getLsbD 7 = false := by
  cases x <;> simp [sweepStatesOf]

/-! ### SWEEP (R192) -/

/-- A sweep as it starts, with its maximum clamped (R192). -/
def Sweep.started (filter : SweepFilter) (start m : Byte) : Sweep :=
  { filter := filter, maximum := clampNat 1 8 m.toNat, clamped := decide (clampNat 1 8 m.toNat ≠ m.toNat)
    next := start.toNat, examined := 0, found := [] }

section Start
variable {s : State} {kb st fb cb k1 k0 start m : Byte} (executing : s.Executing 0x50 [kb, st, fb, cb, k1, k0, start, m])
  (none : s.sweep = none)
include executing none

theorem execSweep_of_invalid
    (invalid : 3 < kb.toNat ∨ fb.toNat = 0 ∨ 8 < fb.toNat ∨ 2 < cb.toNat ∨ 63 < start.toNat) :
    execSweep s = .next (s.finish [0x01]) := by
  simp only [execSweep, show s.request sweepCode = _ from executing.request, none]
  split
  · next kind field cond hk hf hc =>
    rcases invalid with h | h | h | h | h
    · rw [kindFilterOf_eq_none h] at hk; cases hk
    · rw [sweepFieldOf_eq_none (.inl h)] at hf; cases hf
    · rw [sweepFieldOf_eq_none (.inr h)] at hf; cases hf
    · rw [sweepCondOf_eq_none h] at hc; cases hc
    · exact if_pos h
  · rfl

theorem execSweep_of_valid {kind : Option Kind} {field : SweepField} {cond : SweepCond}
    (hk : kindFilterOf kb = some kind) (hf : sweepFieldOf fb = some field) (hc : sweepCondOf cb = some cond)
    (inside : start.toNat ≤ 63) : execSweep s = .next { s with sweep := some (Sweep.started
      ⟨kind, sweepStatesOf st, field, cond, valueOf [k1, k0]⟩ start m) } := by
  simp only [execSweep, show s.request sweepCode = _ from executing.request, none, hk, hf, hc]
  exact if_neg (not_lt.2 inside)

end Start

/-! ### What a filter accepts (R193) -/

theorem Record.sweepValue_iff {r : Record} {f : SweepField} {v : Nat} : r.sweepValue f = some v ↔ r.HasValue f v := by
  unfold Record.sweepValue Record.HasValue
  cases f with
  | spanLow => simp [eq_comm]
  | spanHigh => simp [eq_comm]
  | hits => simp [eq_comm]
  | idle => simp [eq_comm]
  | share =>
    cases r.part with
    | oven o => simp [Part.airtime?]
    | neighbour tag ch a => simpa [Part.airtime?] using eq_comm
    | steady a => simpa [Part.airtime?] using eq_comm
  | period =>
    cases r.part with
    | oven o =>
      cases h : o.periodKnown with
      | false => simp [h]
      | true => simpa [h] using eq_comm
    | neighbour tag ch a => simp
    | steady a => simp
  | channel => cases r.part <;> simp
  | tag =>
    cases r.part with
    | neighbour tag ch a => simpa using eq_comm
    | oven o => simp
    | steady a => simp

theorem SweepCond.holds_iff {c : SweepCond} {v key : Nat} : c.holds v key = true ↔
    (c = .equal ∧ v = key) ∨ (c = .atMost ∧ v ≤ key) ∨ (c = .atLeast ∧ key ≤ v) := by
  cases c <;> simp [SweepCond.holds]

theorem SweepFilter.fieldHolds_iff {f : SweepFilter} {r : Record} : f.fieldHolds r = true ↔ f.key = 0xFFFF
    ∨ ∃ v, r.HasValue f.field v ∧ ((f.cond = .equal ∧ v = f.key) ∨ (f.cond = .atMost ∧ v ≤ f.key)
      ∨ (f.cond = .atLeast ∧ f.key ≤ v)) := by
  simp only [SweepFilter.fieldHolds, Bool.or_eq_true, decide_eq_true_eq, ← Record.sweepValue_iff]
  rw [wildcardKey]
  cases r.sweepValue f.field with
  | none => simp
  | some v => simp [SweepCond.holds_iff]

theorem SweepFilter.accepts_iff {f : SweepFilter} {x : Slot} :
    f.accepts x = true ↔ ∃ r, x.record = some r ∧ f.Matches r := by
  unfold SweepFilter.accepts SweepFilter.Matches
  cases x.record with
  | none => simp
  | some r =>
    simp only [Bool.and_eq_true, List.contains_iff_mem, SweepFilter.fieldHolds_iff, Option.some.injEq,
      exists_eq_left', and_assoc]
    cases f.kind with
    | none => simp
    | some k => simp [beq_iff_eq, eq_comm (a := k)]

/-! ### An examination (R194, R195) -/

section Examination
variable {s : State} {params : List Byte} {w : Sweep} (executing : s.Executing 0x50 params) (sweep : s.sweep = some w)
include executing sweep

theorem execSweepExamination_of_stops (stops : (w.examine (s.table.slot w.next)).stops = true) :
    execSweepExamination s = .next (State.answerOk { s with sweep := none } w.clamped
      (sweepFields (w.examine (s.table.slot w.next)).found (w.examine (s.table.slot w.next)).resume)) := by
  simp only [execSweepExamination, show s.request sweepCode = _ from executing.request, sweep]
  exact if_pos stops

theorem execSweepExamination_of_goes_on (more : ¬ (w.examine (s.table.slot w.next)).stops = true) :
    execSweepExamination s = .next { s with sweep := some (w.examine (s.table.slot w.next)) } := by
  simp only [execSweepExamination, show s.request sweepCode = _ from executing.request, sweep]
  exact if_neg more

end Examination

theorem Sweep.stops_iff {w : Sweep} : w.stops = true ↔ w.maximum ≤ w.found.length ∨ 64 ≤ w.examined := by
  simp [Sweep.stops]

/-- Settles O50: the filter is decoded code by code, and each examination is one slot's. -/
theorem sweepExaminesSlots : Obligations.SweepExaminesSlots := by
  intro s two
  refine ⟨fun kb st fb cb k1 k0 start m executing none => ⟨execSweep_of_invalid executing none,
    fun kind field cond hk hf hc inside => ⟨sweepStatesOf st, mem_sweepStatesOf st, ?_⟩⟩,
    fun params w executing sweep => ?_⟩
  · have flag : (!(1 ≤ m.toNat && m.toNat ≤ 8)) = decide (clampNat 1 8 m.toNat ≠ m.toNat) := by
      rw [Bool.eq_iff_iff]
      simp only [Bool.not_eq_true', Bool.and_eq_false_iff, decide_eq_false_iff_not, decide_eq_true_eq]
      unfold clampNat
      omega
    have valid := execSweep_of_valid executing none ((kindFilterOf_eq kb).trans hk)
      ((sweepFieldOf_eq fb).trans (by rw [hf]; rfl)) ((sweepCondOf_eq cb).trans hc) inside
    rw [valueOf_pair, Sweep.started, ← flag] at valid
    exact valid
  · intro slot matched
    have accepts : w.filter.accepts slot = true ↔ matched := SweepFilter.accepts_iff
    refine ⟨(w.examine slot).found, fun yes => if_pos (accepts.2 yes), fun no => if_neg (mt accepts.1 no), ?_⟩
    intro on ends
    have stopped (stops : (w.examine slot).stops = true) {resume : Byte} (e : (w.examine slot).resume = resume) :
        exec .sweepExamination s = .next (ends resume) := by
      refine (execSweepExamination_of_stops executing sweep stops).trans ?_
      rw [State.answerOk_eq, sweepFields, sweepPlaces_eq, show (w.examine (s.table.slot w.next)).resume = resume from e]
      simp only [ends, List.append_assoc]
      rfl
    refine ⟨fun short before => execSweepExamination_of_goes_on executing sweep ?_, fun full before => stopped ?_ ?_,
      fun all => stopped ?_ ?_⟩
    · rw [Sweep.stops_iff]
      exact not_or.2 ⟨not_le.2 short, not_le.2 before⟩
    · exact Sweep.stops_iff.2 (.inl full)
    · exact if_neg (not_le.2 before)
    · exact Sweep.stops_iff.2 (.inr all)
    · exact if_pos all

end Sys2Proof.Machine
end

section
/-! PROOFS. PIN, SET ORIGIN and RETIRE: the record a PIN installs and the slot it takes, and what the two requests do by
the state of the record (R22, R25 to R27, R189 to R191). -/

namespace Sys2Proof.Machine

/-! ### The record of a PIN (R25, R189) -/

theorem kindOf_eq_none {b : Byte} (h1 : b ≠ 0x01) (h2 : b ≠ 0x02) (h3 : b ≠ 0x03) : kindOf b = none := by
  rw [kindOf, if_neg h1, if_neg h2, if_neg h3]

theorem givenOr_value (absent lo hi v : Nat) :
    (givenOr absent lo hi v).value = if v = 0xFFFF then absent else max lo (min hi v) := by
  unfold givenOr
  split <;> rfl

theorem givenOr_clamped_iff {absent lo hi v : Nat} : (givenOr absent lo hi v).clamped = false ↔
    v = 0xFFFF ∨ v = if v = 0xFFFF then absent else max lo (min hi v) := by
  unfold givenOr givenIn clampNat
  split
  · next e => simp [e]
  · next e =>
    simp only [decide_eq_false_iff_not, not_not, e, false_or]
    exact eq_comm

theorem givenIn_clamped_iff {lo hi v : Nat} : (givenIn lo hi v).clamped = false ↔ v = max lo (min hi v) := by
  simp only [givenIn, decide_eq_false_iff_not, not_not]
  exact eq_comm

theorem pinSpan_of_crossed {lo hi : Nat} (h : min 100 hi < min 100 lo) : pinSpan lo hi = none := by
  have crossed : (givenIn 0 100 hi).value < (givenIn 0 100 lo).value := by simpa [givenIn, clampNat] using h
  rw [pinSpan]
  exact if_pos crossed

/-- A span whose edges do not cross is reduced to a width of 40 from its low edge (R189). -/
theorem pinSpan_of_ordered {lo hi : Nat} (h : min 100 lo ≤ min 100 hi) : ∃ clamped, pinSpan lo hi =
      some (⟨min 100 lo, min (min 100 hi) (min 100 lo + 40)⟩, clamped)
    ∧ (clamped = false ↔ lo = min 100 lo ∧ hi = min (min 100 hi) (min 100 lo + 40)) := by
  have low : (givenIn 0 100 lo).value = min 100 lo := Nat.zero_max _
  have high : (givenIn 0 100 hi).value = min 100 hi := Nat.zero_max _
  unfold pinSpan
  dsimp only
  rw [low, high, if_neg (not_lt.2 h)]
  split
  · next narrow =>
    have whole : min (min 100 hi) (min 100 lo + 40) = min 100 hi := by omega
    refine ⟨_, by rw [whole], ?_⟩
    rw [Bool.or_eq_false_iff, givenIn_clamped_iff, givenIn_clamped_iff, whole, Nat.zero_max, Nat.zero_max]
  · next wide =>
    have cut : min (min 100 hi) (min 100 lo + 40) = min 100 lo + 40 := by omega
    refine ⟨_, by rw [cut], ?_⟩
    rw [cut]
    refine ⟨nofun, fun ⟨_, e⟩ => ?_⟩
    omega

section Record
variable {q : PinRequest} {tolerance : Nat}

theorem PinRequest.record_of_no_kind (h : kindOf q.kind = none) : q.record tolerance = none := by
  rw [PinRequest.record, h]

theorem PinRequest.record_of_crossed (h : q.kind = 0x01 ∨ q.kind = 0x03)
    (crossed : min 100 q.spanHigh < min 100 q.spanLow) : q.record tolerance = none := by
  rw [PinRequest.record]
  rcases h with h | h <;> rw [h, pinSpan_of_crossed crossed] <;> rfl

theorem PinRequest.record_of_channel (h : q.kind = 0x02) : q.record tolerance =
    if 1 ≤ q.channel.toNat ∧ q.channel.toNat ≤ 14 then
      some (pinnedRecord (channelSpan q.channel.toNat)
        (.neighbour q.tag q.channel.toNat { share := 0, acc := 0, level := -100 }), false)
    else none := by
  rw [PinRequest.record, h]; rfl

theorem PinRequest.record_of_steady (h : q.kind = 0x03) (ordered : min 100 q.spanLow ≤ min 100 q.spanHigh) :
    ∃ clamped, q.record tolerance = some (pinnedRecord
        ⟨min 100 q.spanLow, min (min 100 q.spanHigh) (min 100 q.spanLow + 40)⟩
        (.steady { share := 0, acc := 0, level := -100 }), clamped)
      ∧ (clamped = false ↔ q.spanLow = min 100 q.spanLow
        ∧ q.spanHigh = min (min 100 q.spanHigh) (min 100 q.spanLow + 40)) := by
  obtain ⟨clamped, span, kept⟩ := pinSpan_of_ordered ordered
  exact ⟨clamped, by rw [PinRequest.record, h, span]; rfl, kept⟩

/-- The oven part that a PIN installs (R25, R189). -/
def PinRequest.ovenPart (q : PinRequest) (tolerance : Nat) : OvenPart :=
  let period := max 256000 (min 336000 q.period)
  { periodKnown := true, p16 := period, phaseKnown := false, a16 := 0
    d := if q.d = 0xFFFF then period / 32 else max 1000 (min 15000 q.d)
    w := if q.w = 0xFFFF then tolerance else max 250 (min 4000 q.w) }

theorem PinRequest.record_of_oven (h : q.kind = 0x01) (ordered : min 100 q.spanLow ≤ min 100 q.spanHigh)
    (least : 250 ≤ tolerance) (most : tolerance ≤ 4000) : ∃ clamped, q.record tolerance = some (pinnedRecord
        ⟨min 100 q.spanLow, min (min 100 q.spanHigh) (min 100 q.spanLow + 40)⟩ (.oven (q.ovenPart tolerance)), clamped)
      ∧ (clamped = false ↔ (q.spanLow = min 100 q.spanLow
          ∧ q.spanHigh = min (min 100 q.spanHigh) (min 100 q.spanLow + 40))
        ∧ q.period = (q.ovenPart tolerance).p16 ∧ (q.d = 0xFFFF ∨ q.d = (q.ovenPart tolerance).d)
        ∧ (q.w = 0xFFFF ∨ q.w = (q.ovenPart tolerance).w)) := by
  obtain ⟨clamped, span, kept⟩ := pinSpan_of_ordered ordered
  have width : clampW (givenOr tolerance 250 4000 q.w).value = (q.ovenPart tolerance).w := by
    rw [givenOr_value, PinRequest.ovenPart]
    simp only [clampW, clampInt]
    split <;> omega
  have duration : (givenOr ((givenIn 256000 336000 q.period).value / 32) 1000 15000 q.d).value = (q.ovenPart tolerance).d :=
    givenOr_value ..
  refine ⟨clamped || (givenIn 256000 336000 q.period).clamped
    || (givenOr ((givenIn 256000 336000 q.period).value / 32) 1000 15000 q.d).clamped
    || (givenOr tolerance 250 4000 q.w).clamped, ?_, ?_⟩
  · rw [PinRequest.record, h, span]
    simp only [kindOf, if_true, Option.map_some, width, duration]
    rfl
  · simp only [Bool.or_eq_false_iff, kept, givenIn_clamped_iff, givenOr_clamped_iff, and_assoc]
    rfl

end Record

/-! ### The slot of a PIN (R12, R25) -/

/-- The state in which a PIN has put its record into slot `i`, whose generation is `gen` (R25, R189). -/
abbrev State.Installed (s : State) (span : Span) (part : Part) (kept : Prop) (t : State) (i : Nat) (gen : BitVec 4) :
    Prop :=
  exec .pin s = .next t
    ∧ t.table.slot i = ⟨gen, some { pinnedRecord span part with seq := s.table.seqCounter }⟩
    ∧ (∀ j, j ≠ i → t.table.slot j = s.table.slot j)
    ∧ t.table.seqCounter = s.table.seqCounter + 1
    ∧ (∃ first : Byte, (kept → first = 0x00) ∧ (¬ kept → first = 0x80) ∧ t.link = { s.link with
        phase := .result, consumed := 0
        result := [first, byteOf ((i * 16 + gen.toNat) / 256), byteOf (i * 16 + gen.toNat)] })
    ∧ t = { s with table := t.table, link := t.link }

section Pin
variable {s : State} {bytes : List Byte} {q : PinRequest} (executing : s.Executing 0x30 bytes)
  (request : pinRequestOf bytes = some q)
include executing request

theorem execPin_of_invalid (invalid : q.record s.params.ovenTolerance = none) : execPin s = .next (s.finish [0x01]) := by
  simp only [execPin, executing.request, Option.bind_some, request, invalid]
  rfl

section Record
variable {r : Record} {clamped : Bool} (record : q.record s.params.ovenTolerance = some (r, clamped))
include record

theorem execPin_of_full (full : 16 ≤ s.table.pinned) : execPin s = .next (s.finish [0x0A]) := by
  simp only [execPin, executing.request, Option.bind_some, request, record]
  exact if_pos full

variable (room : s.table.pinned < 16)
include room

theorem execPin_of_no_slot (none : s.table.takeSlot = none) : execPin s = .next (s.finish [0x0A]) := by
  simp only [execPin, executing.request, Option.bind_some, request, record, none]
  exact if_neg (not_le.2 room)

theorem execPin_of_slot {i : Nat} {t : Table} (taken : s.table.takeSlot = some (i, t)) : execPin s =
    .next (State.finish { s with table := t.enter i r }
      ((if clamped then 0x80 else 0x00) :: handleBytes i (t.slot i).gen)) := by
  simp only [execPin, executing.request, Option.bind_some, request, record, taken, State.answerOk_eq]
  exact if_neg (not_le.2 room)

end Record

section Installs
variable {span : Span} {part : Part} {clamped : Bool} {kept : Prop}
  (record : q.record s.params.ovenTolerance = some (pinnedRecord span part, clamped)) (flag : clamped = false ↔ kept)
  (room : s.table.pinned < 16)
include record flag room

theorem State.installed_of_slot {i : Nat} {t : Table} (taken : s.table.takeSlot = some (i, t)) (lt : i < t.slots.length)
    (others : ∀ j, j ≠ i → t.slot j = s.table.slot j) (counter : t.seqCounter = s.table.seqCounter) :
    s.Installed span part kept (State.finish { s with table := t.enter i (pinnedRecord span part) }
      ((if clamped then 0x80 else 0x00) :: handleBytes i (t.slot i).gen)) i (t.slot i).gen := by
  refine ⟨execPin_of_slot executing request record room taken, ?_, fun j ne => (Table.slot_enter_ne ne).trans (others j ne),
    congrArg (· + 1) counter, ⟨if clamped then 0x80 else 0x00, fun yes => by rw [flag.2 yes]; rfl, fun no => ?_, ?_⟩, rfl⟩
  · rw [State.table_finish, Table.slot_enter lt, counter]
  · exact if_pos (by simpa using mt flag.1 no)
  · rw [handleBytes, bytesOf_two]; rfl

theorem State.installed_of_free {i : Nat} (free : s.table.LowestFree i) : ∃ t,
    s.Installed span part kept t i (s.table.slot i).gen ∧ t.table.pinned = s.table.pinned + 1
      ∧ t.table.counts = { s.table.counts with
          free := s.table.counts.free - 1, tracked := s.table.counts.tracked + 1 } :=
  ⟨_, State.installed_of_slot executing request record flag room (Table.takeSlot_of_free free) free.1 (fun _ _ => rfl) rfl,
    Table.pinned_enter free.2.1, Table.counts_enter free.2.1⟩

theorem State.installed_of_oldest (full : ∀ x ∈ s.table.slots, x.record.isSome = true) {i : Nat} {r : Record}
    (oldest : s.table.OldestCandidate i r) : ∃ t, s.Installed span part kept t i ((s.table.slot i).gen + 1)
      ∧ (r.origin = .learned → t.table.pinned = s.table.pinned + 1)
      ∧ t.table.counts = { s.table.counts with
          candidate := s.table.counts.candidate - 1, tracked := s.table.counts.tracked + 1 } := by
  have occupied := Table.mem_records.1 oldest.1
  have lt := Table.lt_of_record occupied
  have freed := Table.record_release occupied
  have installed := State.installed_of_slot executing request record flag room (Table.takeSlot_of_oldest full oldest)
    (by rwa [Table.release, Table.length_replace]) (fun j ne => Table.slot_release_ne ne) rfl
  rw [Table.slot_release lt] at installed
  refine ⟨_, installed, fun learned => ?_, ?_⟩
  · rw [State.table_finish, Table.pinned_enter freed, Table.pinned_release occupied learned]; rfl
  · rw [State.table_finish, Table.counts_enter freed, Table.counts_release occupied oldest.2.1]; rfl

end Installs
end Pin

theorem valueOf_three (a b c : Byte) : valueOf [a, b, c] = (a.toNat * 256 + b.toNat) * 256 + c.toNat := by
  simp [valueOf]

/-- Settles O44: the request's bytes give the record, and the table its slot. -/
theorem pinInstalls : Obligations.PinInstalls := by
  intro s kind lo hi p2 p1 p0 d1 d0 w1 w0 channel t1 t0 executing p d w low high span spanKept period duration tolerance
    installs
  have request : pinRequestOf [kind, lo, hi, p2, p1, p0, d1, d0, w1, w0, channel, t1, t0] =
      some ⟨kind, lo.toNat, hi.toNat, p, d, w, channel, BitVec.ofNat 16 (t1.toNat * 256 + t0.toNat)⟩ := by
    rw [pinRequestOf, valueOf_three, valueOf_pair, valueOf_pair, valueOf_pair]
  have install {q : PinRequest} {span : Span} {part : Part} {kept : Prop} {clamped : Bool}
      (request : pinRequestOf [kind, lo, hi, p2, p1, p0, d1, d0, w1, w0, channel, t1, t0] = some q)
      (record : q.record s.params.ovenTolerance = some (pinnedRecord span part, clamped))
      (flag : clamped = false ↔ kept) : installs span part kept :=
    ⟨execPin_of_full executing request record, fun room =>
      ⟨fun i free => State.installed_of_free executing request record flag room free, fun full =>
        ⟨fun i r oldest => State.installed_of_oldest executing request record flag room full oldest, fun none =>
          execPin_of_no_slot executing request record room (Table.takeSlot_of_none full none)⟩⟩⟩
  have invalid := execPin_of_invalid executing request
  refine ⟨fun h1 h2 h3 => invalid (PinRequest.record_of_no_kind (kindOf_eq_none h1 h2 h3)),
    fun kind crossed => invalid (PinRequest.record_of_crossed kind crossed), fun oven ordered least most => ?_,
    fun neighbour => ⟨fun outside => invalid ?_, fun low high => install request ?_ (clamped := false) (by simp)⟩,
    fun steady ordered => ?_⟩
  · obtain ⟨clamped, record, flag⟩ := PinRequest.record_of_oven (q := ⟨kind, lo.toNat, hi.toNat, p, d, w, channel, _⟩)
      oven ordered least most
    exact install request record flag
  · exact (PinRequest.record_of_channel neighbour).trans (if_neg (by dsimp only; omega))
  · exact (PinRequest.record_of_channel neighbour).trans (if_pos ⟨low, high⟩)
  · obtain ⟨clamped, record, flag⟩ := PinRequest.record_of_steady (q := ⟨kind, lo.toNat, hi.toNat, p, d, w, channel, _⟩)
      (tolerance := s.params.ovenTolerance) steady ordered
    exact install request record flag

end Sys2Proof.Machine
end

section
/-! PROOFS. SET ORIGIN and RETIRE: what the two requests do by the state and the origin of the record (R22, R26, R27,
R190, R191). -/

namespace Sys2Proof.Machine

theorem Record.state_confirmed (r : Record) : r.confirmed.state = .tracked := rfl

theorem State.record_putRecord {s : State} {i : Nat} {r : Record} (h : i < s.table.slots.length) :
    (s.putRecord i r).table.record i = some r := by
  rw [State.table_putRecord, Table.record, Table.slot_put h]

/-- The check leaves a candidate's state alone exactly where the candidate falls short of confirmation. -/
theorem State.confirm_eq_self_iff {s : State} {i : Nat} {r : Record} (hr : s.table.record i = some r)
    (candidate : r.state = .candidate) : s.confirm i = s ↔ s.params.confirms r = false := by
  constructor
  · intro same
    by_contra meets
    have confirmed := State.record_confirm hr candidate (by simpa using meets)
    rw [same, hr, Option.some.injEq] at confirmed
    have tracked := congrArg Record.state confirmed
    rw [Record.state_confirmed, candidate] at tracked
    cases tracked
  · intro short
    exact State.confirm_eq_self hr (.inr fun meets => by simp [Params.confirms_iff.2 meets] at short)

/-! ### The origin of a record (R26, R27) -/

theorem originOf_eq_none {b : Byte} (h0 : b ≠ 0x00) (h1 : b ≠ 0x01) : originOf b = none := by
  rw [originOf, if_neg h0, if_neg h1]

section Origin
variable {s : State} {i : Nat} {r : Record}

theorem State.pinRecord_of_pinned (pinned : r.origin = .pinned) : s.pinRecord i r = .ok s := if_pos pinned

section Learned
variable (learned : r.origin = .learned)
include learned

theorem State.pinRecord_of_full (full : 16 ≤ s.table.pinned) : s.pinRecord i r = .error .full := by
  rw [State.pinRecord, if_neg (by simp [learned])]
  exact if_pos full

theorem State.pinRecord_of_room (room : s.table.pinned < 16) : s.pinRecord i r =
    if r.state = .candidate ∧ s.params.confirms r = false then .error .notPermitted
    else .ok ((s.confirm i).putRecord i
      { (if r.state = .candidate then r.confirmed else r) with origin := .pinned }) := by
  rw [State.pinRecord, if_neg (by simp [learned])]
  exact if_neg (not_le.2 room)

theorem State.pinRecord_of_short (room : s.table.pinned < 16) (hr : s.table.record i = some r)
    (candidate : r.state = .candidate) (same : s.confirm i = s) : s.pinRecord i r = .error .notPermitted := by
  rw [State.pinRecord_of_room learned room, if_pos ⟨candidate, (State.confirm_eq_self_iff hr candidate).1 same⟩]

theorem State.pinRecord_of_meets (room : s.table.pinned < 16) (hr : s.table.record i = some r)
    (candidate : r.state = .candidate) (moves : s.confirm i ≠ s) :
    s.pinRecord i r = .ok ((s.confirm i).putRecord i { r.confirmed with origin := .pinned }) := by
  rw [State.pinRecord_of_room learned room, if_pos candidate, if_neg]
  exact fun ⟨_, short⟩ => moves ((State.confirm_eq_self_iff hr candidate).2 short)

theorem State.pinRecord_of_past (room : s.table.pinned < 16) (hr : s.table.record i = some r)
    (past : r.state ≠ .candidate) : s.pinRecord i r = .ok (s.putRecord i { r with origin := .pinned }) := by
  rw [State.pinRecord_of_room learned room, if_neg past, if_neg (fun h => past h.1), State.confirm_eq_self hr (.inl past)]

end Learned

theorem State.unpinRecord_of_learned (learned : r.origin = .learned) : s.unpinRecord i r = s := if_pos learned

theorem State.unpinRecord_of_pinned (pinned : r.origin = .pinned) :
    s.unpinRecord i r = s.putRecord i { r with origin := .learned } := if_neg (by simp [pinned])

/-! ### SET ORIGIN (R190) -/

theorem State.originBytes_of_record (hr : s.table.record i = some r) : s.originBytes i = [r.state.code, r.origin.code] := by
  simp only [State.originBytes, hr]

theorem execSetOrigin_of_invalid {h1 h0 x : Byte} (executing : s.Executing 0x31 [h1, h0, x]) (invalid : originOf x = none) :
    execSetOrigin s = .next (s.finish [0x01]) := by
  simp only [execSetOrigin, executing.request, invalid]; rfl

theorem execSetOrigin_of_refused {h1 h0 x : Byte} {o : Origin} {e : Result} (executing : s.Executing 0x31 [h1, h0, x])
    (code : originOf x = some o) (refused : s.table.resolve (h1.toNat * 256 + h0.toNat) = .refused e) :
    execSetOrigin s = .next (s.finish [e.code]) := by
  simp only [execSetOrigin, executing.request, code, valueOf_pair, refused]; rfl

variable {h1 h0 : Byte} (resolved : s.table.resolve (h1.toNat * 256 + h0.toNat) = .record i r)
include resolved

theorem execSetOrigin_of_error {e : Result} (executing : s.Executing 0x31 [h1, h0, 0x01]) (error : s.pinRecord i r = .error e) :
    execSetOrigin s = .next (s.finish [e.code]) := by
  have code : originOf 0x01 = some .pinned := rfl
  simp only [execSetOrigin, executing.request, code, valueOf_pair, resolved, if_true, error]; rfl

theorem execSetOrigin_of_pins {u : State} {q : Record} (executing : s.Executing 0x31 [h1, h0, 0x01])
    (pins : s.pinRecord i r = .ok u) (put : u.table.record i = some q) :
    execSetOrigin s = .next (u.finish [0x00, q.state.code, q.origin.code]) := by
  have code : originOf 0x01 = some .pinned := rfl
  simp only [execSetOrigin, executing.request, code, valueOf_pair, resolved, if_true, pins,
    State.originBytes_of_record put]; rfl

theorem execSetOrigin_of_unpins {q : Record} (executing : s.Executing 0x31 [h1, h0, 0x00])
    (put : (s.unpinRecord i r).table.record i = some q) :
    execSetOrigin s = .next ((s.unpinRecord i r).finish [0x00, q.state.code, q.origin.code]) := by
  have code : originOf 0x00 = some .learned := rfl
  simp only [execSetOrigin, executing.request, code, valueOf_pair, resolved, reduceCtorEq, if_false,
    State.originBytes_of_record put]; rfl

/-- SET ORIGIN to PINNED: nothing to do, FULL, NOT_PERMITTED, or pinned (R26). -/
theorem execSetOrigin_to_pinned (executing : s.Executing 0x31 [h1, h0, 0x01]) :
    (r.origin = .pinned → execSetOrigin s = .next (s.finish [0x00, r.state.code, 0x01]))
    ∧ (r.origin = .learned → 16 ≤ s.table.pinned → execSetOrigin s = .next (s.finish [0x0A]))
    ∧ (r.origin = .learned → s.table.pinned < 16 →
      (r.state = .tracked ∨ r.state = .coasting → execSetOrigin s = .next
        ((s.putRecord i { r with origin := .pinned }).finish [0x00, r.state.code, 0x01]))
      ∧ (r.state = .candidate → s.confirm i = s → execSetOrigin s = .next (s.finish [0x08]))
      ∧ (r.state = .candidate → s.confirm i ≠ s → execSetOrigin s = .next
        (((s.confirm i).putRecord i { r.confirmed with origin := .pinned }).finish [0x00, 0x02, 0x01]))) := by
  obtain ⟨-, -, -, hr, -⟩ := Table.resolve_record resolved
  have lt := Table.lt_of_record hr
  refine ⟨fun pinned => ?_, fun learned full => ?_, fun learned room =>
    ⟨fun past => ?_, fun candidate same => ?_, fun candidate moves => ?_⟩⟩
  · rw [execSetOrigin_of_pins resolved executing (State.pinRecord_of_pinned pinned) hr, pinned]; rfl
  · exact execSetOrigin_of_error resolved executing (State.pinRecord_of_full learned full)
  · have past : r.state ≠ .candidate := by rcases past with h | h <;> simp [h]
    exact execSetOrigin_of_pins resolved executing (State.pinRecord_of_past learned room hr past)
      (State.record_putRecord lt)
  · exact execSetOrigin_of_error resolved executing (State.pinRecord_of_short learned room hr candidate same)
  · have stays : i < (s.confirm i).table.slots.length := by
      have meets : s.params.confirms r = true := by
        simpa using mt (State.confirm_eq_self_iff hr candidate).2 moves
      exact Table.lt_of_record (State.record_confirm hr candidate meets)
    exact execSetOrigin_of_pins resolved executing (State.pinRecord_of_meets learned room hr candidate moves)
      (State.record_putRecord stays)

/-- SET ORIGIN to LEARNED (R27). -/
theorem execSetOrigin_to_learned (executing : s.Executing 0x31 [h1, h0, 0x00]) :
    (r.origin = .learned → execSetOrigin s = .next (s.finish [0x00, r.state.code, 0x00]))
    ∧ (r.origin = .pinned → execSetOrigin s = .next
        ((s.putRecord i { r with origin := .learned }).finish [0x00, r.state.code, 0x00])) := by
  obtain ⟨-, -, -, hr, -⟩ := Table.resolve_record resolved
  refine ⟨fun learned => ?_, fun pinned => ?_⟩
  · have same := State.unpinRecord_of_learned (s := s) (i := i) learned
    rw [execSetOrigin_of_unpins resolved executing (same.symm ▸ hr), same, learned]; rfl
  · have put := State.unpinRecord_of_pinned (s := s) (i := i) pinned
    rw [execSetOrigin_of_unpins resolved executing (put.symm ▸ State.record_putRecord (Table.lt_of_record hr)), put]; rfl

end Origin

/-! ### RETIRE (R22, R191) -/

theorem Slot.retire_of_held {x : Slot} {r : Record} (hr : x.record = some r) (held : r.held = true) :
    x.retire = { x with record := some { r with state := .retired } } := by
  simp only [Slot.retire, hr, held, if_true]

theorem Slot.retire_of_unheld {x : Slot} {r : Record} (hr : x.record = some r) (unheld : r.held = false) :
    x.retire = x.freed := by
  simp [Slot.retire, hr, unheld]

section Retire
variable {s : State} {h1 h0 : Byte} (executing : s.Executing 0x32 [h1, h0])
include executing

theorem execRetire_of_refused {e : Result} (refused : s.table.resolve (h1.toNat * 256 + h0.toNat) = .refused e) :
    execRetire s = .next (s.finish [e.code]) := by
  simp only [execRetire, executing.request, valueOf_pair, refused]; rfl

theorem execRetire_of_record {i : Nat} {r : Record} (resolved : s.table.resolve (h1.toNat * 256 + h0.toNat) = .record i r) :
    execRetire s = .next (State.finish { s with table := s.table.replace i (s.table.slot i).retire }
      [0x00, flagByte r.held]) := by
  simp only [execRetire, executing.request, valueOf_pair, resolved]; rfl

end Retire

/-- Settles O45: the handle is resolved, and the record's state and origin say what either request does. -/
theorem originAndRetireRequests : Obligations.OriginAndRetireRequests := by
  intro s h1 h0
  refine ⟨fun x executing h0 h1 => execSetOrigin_of_invalid executing (originOf_eq_none h0 h1), fun e refused =>
    ⟨fun x executing code => ?_, fun executing => execRetire_of_refused executing refused⟩, fun i r resolved =>
    ⟨execSetOrigin_to_pinned resolved, execSetOrigin_to_learned resolved, fun executing => ?_⟩⟩
  · rcases code with rfl | rfl
    · exact execSetOrigin_of_refused executing (o := .learned) rfl refused
    · exact execSetOrigin_of_refused executing (o := .pinned) rfl refused
  · obtain ⟨-, -, -, hr, -⟩ := Table.resolve_record resolved
    refine ⟨fun held => (execRetire_of_record executing resolved).trans ?_,
      fun unheld => (execRetire_of_record executing resolved).trans ?_⟩
    · rw [Slot.retire_of_held hr held, held]; rfl
    · rw [Slot.retire_of_unheld hr unheld, unheld]; rfl

end Sys2Proof.Machine
end

section
/-! PROOFS. The cursor: what it opens and lets go, OPEN, and the fields that EDIT stages (R180, R181, R183). -/

namespace Sys2Proof.Machine

/-! ### What the cursor holds (R180) -/

theorem State.setHeld_of_record {s : State} {i : Nat} {r : Record} {b : Bool} (hr : s.table.record i = some r) :
    s.setHeld i b = s.putRecord i { r with held := b } := by
  simp only [State.setHeld, hr]

theorem Table.record_eq_of_slot {t : Table} {i : Nat} {g : BitVec 4} {x : Option Record} (h : t.slot i = ⟨g, x⟩) :
    t.record i = x := by
  rw [Table.record, h]

section Held
variable {s : State} {c : Cursor} (hc : s.cursor = some c)
include hc

theorem State.heldRecord_of_cursor : s.heldRecord = s.table.record c.slot := by
  simp only [State.heldRecord, hc]

theorem State.holdsRetired_of_record {q : Record} (hq : s.table.record c.slot = some q) :
    s.holdsRetired = (q.state == .retired) := by
  simp only [State.holdsRetired, State.heldRecord_of_cursor hc, hq]

theorem State.letGo_of_record {q : Record} (hq : s.table.record c.slot = some q) :
    s.letGo = { s.putRecord c.slot { q with held := false } with cursor := none } := by
  simp only [State.letGo, hc, State.setHeld_of_record hq]

end Held

theorem State.holdsRetired_of_closed {s : State} (hc : s.cursor = none) : s.holdsRetired = false := by
  simp only [State.holdsRetired, State.heldRecord, hc]

theorem State.letGo_of_closed {s : State} (hc : s.cursor = none) : s.letGo = s := by
  simp only [State.letGo, hc]

/-! ### The opening of a record (R181, R187) -/

/-- The state and the answer with which the cursor opens on slot `i`; the answer carries `flag` after OK. -/
def State.opened (u : State) (i : Nat) (flag : Byte) : State :=
  (u.hold i).answerOk false (flag :: (u.hold i).cursorBytes i)

/-- The link after an opening answers the handle and the image of the record, held (R181). -/
def Link.opened (l : Link) (i : Nat) (g : BitVec 4) (r : Record) (flag : Byte) : Link :=
  { l with
    phase := .result, consumed := 0
    result := [0x00, flag] ++ bytesOf 2 (i * 16 + g.toNat) ++ Record.image { r with held := true } }

section Opened
variable {u : State} {i : Nat} {r : Record} (hr : u.table.record i = some r)
include hr

theorem State.hold_of_record : u.hold i =
    { u.putRecord i { r with held := true } with cursor := some ⟨i, (u.table.slot i).gen, Staged.empty⟩ } := by
  simp only [State.hold, State.setHeld_of_record hr]

theorem State.cursorBytes_hold :
    (u.hold i).cursorBytes i = bytesOf 2 (i * 16 + (u.table.slot i).gen.toNat) ++ Record.image { r with held := true } := by
  have slot : (u.hold i).table.slot i = ⟨(u.table.slot i).gen, some { r with held := true }⟩ := by
    rw [State.hold_of_record hr]
    exact Table.slot_put (Table.lt_of_record hr)
  simp only [State.cursorBytes, handleBytes, handleValue, Table.image, Table.record_eq_of_slot slot, slot]

theorem State.opened_eq (flag : Byte) : u.opened i flag =
    { u with
      table := u.table.put i { r with held := true }
      cursor := some ⟨i, (u.table.slot i).gen, Staged.empty⟩
      link := u.link.opened i (u.table.slot i).gen r flag } := by
  rw [State.opened, State.cursorBytes_hold hr, State.hold_of_record hr]
  rfl

theorem State.slot_opened (flag : Byte) :
    (u.opened i flag).table.slot i = ⟨(u.table.slot i).gen, some { r with held := true }⟩ := by
  rw [State.opened_eq hr]
  exact Table.slot_put (Table.lt_of_record hr)

theorem State.slot_opened_ne (flag : Byte) {j : Nat} (ne : j ≠ i) : (u.opened i flag).table.slot j = u.table.slot j := by
  rw [State.opened_eq hr]
  exact Table.slot_put_ne ne

end Opened

/-! ### OPEN (R181) -/

section Open
variable {s : State} {h1 h0 : Byte} (executing : s.Executing 0x40 [h1, h0])
include executing

theorem execOpenRecord_of_refused {e : Result} (refused : s.table.resolve (h1.toNat * 256 + h0.toNat) = .refused e) :
    execOpenRecord s = .next (s.finish [e.code]) := by
  simp only [execOpenRecord, executing.request, valueOf_pair, refused]; rfl

variable {i : Nat} {r : Record} (resolved : s.table.resolve (h1.toNat * 256 + h0.toNat) = .record i r)
include resolved

theorem execOpenRecord_of_retired (retired : s.holdsRetired = true) : execOpenRecord s = .next (s.finish [0x05]) := by
  simp only [execOpenRecord, executing.request, valueOf_pair, resolved]
  exact if_pos retired

theorem execOpenRecord_of_live (live : s.holdsRetired = false) :
    execOpenRecord s = .next (s.letGo.opened i (flagByte s.cursor.isSome)) := by
  simp only [execOpenRecord, executing.request, valueOf_pair, resolved]
  exact if_neg (by simp [live])

theorem execOpenRecord_of_closed (hc : s.cursor = none) : execOpenRecord s = .next (s.opened i 0x00) := by
  rw [execOpenRecord_of_live executing resolved (State.holdsRetired_of_closed hc), State.letGo_of_closed hc, hc]; rfl

variable {c : Cursor} {q : Record} (hc : s.cursor = some c) (hq : s.table.record c.slot = some q)
include hc hq

theorem execOpenRecord_of_open (live : q.state ≠ .retired) : execOpenRecord s = .next (s.letGo.opened i 0x01) := by
  have holds : s.holdsRetired = false := by simpa [State.holdsRetired_of_record hc hq] using live
  rw [execOpenRecord_of_live executing resolved holds, hc]; rfl

/-- The record that was held is let go, and the cursor opens on another (R181). -/
theorem execOpenRecord_of_other (live : q.state ≠ .retired) (ne : c.slot ≠ i) : ∃ t, execOpenRecord s = .next t
    ∧ t.table.slot c.slot = ⟨(s.table.slot c.slot).gen, some { q with held := false }⟩
    ∧ t.table.slot i = ⟨(s.table.slot i).gen, some { r with held := true }⟩
    ∧ (∀ j, j ≠ i → j ≠ c.slot → t.table.slot j = s.table.slot j)
    ∧ t.table.seqCounter = s.table.seqCounter
    ∧ t.cursor = some { slot := i, gen := (s.table.slot i).gen, staged := Staged.empty }
    ∧ t.link = s.link.opened i (s.table.slot i).gen r 0x01
    ∧ t = { s with table := t.table, cursor := t.cursor, link := t.link } := by
  obtain ⟨-, -, -, occupied, -⟩ := Table.resolve_record resolved
  have letGo := State.letGo_of_record hc hq
  have other {j : Nat} (ne : j ≠ c.slot) : s.letGo.table.slot j = s.table.slot j := by
    rw [letGo]; exact Table.slot_put_ne ne
  have hr : s.letGo.table.record i = some r := by rwa [Table.record, other ne.symm]
  have opened := State.opened_eq hr 0x01
  rw [other ne.symm] at opened
  refine ⟨_, execOpenRecord_of_open executing resolved hc hq live, ?_, ?_, fun j nei nec => ?_, ?_⟩
  · rw [State.slot_opened_ne hr _ ne, letGo]
    exact Table.slot_put (Table.lt_of_record hq)
  · rw [State.slot_opened hr, other ne.symm]
  · rw [State.slot_opened_ne hr _ nei, other nec]
  · rw [opened, letGo]
    exact ⟨rfl, rfl, rfl, rfl⟩

omit hq in
/-- The record that is held is let go and held again (R181). -/
theorem execOpenRecord_of_same (same : c.slot = i) : ∃ t, execOpenRecord s = .next t
    ∧ t.table.slot i = ⟨(s.table.slot i).gen, some { r with held := true }⟩
    ∧ (∀ j, j ≠ i → t.table.slot j = s.table.slot j)
    ∧ t.table.seqCounter = s.table.seqCounter
    ∧ t.cursor = some { slot := i, gen := (s.table.slot i).gen, staged := Staged.empty }
    ∧ t.link = s.link.opened i (s.table.slot i).gen r 0x01
    ∧ t = { s with table := t.table, cursor := t.cursor, link := t.link } := by
  obtain ⟨-, -, -, occupied, live⟩ := Table.resolve_record resolved
  subst same
  have letGo := State.letGo_of_record hc occupied
  have slot : s.letGo.table.slot c.slot = ⟨(s.table.slot c.slot).gen, some { r with held := false }⟩ := by
    rw [letGo]; exact Table.slot_put (Table.lt_of_record occupied)
  have hr := Table.record_eq_of_slot slot
  have opened := State.opened_eq hr 0x01
  rw [slot] at opened
  refine ⟨_, execOpenRecord_of_open executing resolved hc occupied live, ?_, fun j ne => ?_, ?_⟩
  · rw [State.slot_opened hr, slot]
  · rw [State.slot_opened_ne hr _ ne, letGo]
    exact Table.slot_put_ne ne
  · rw [opened, letGo]
    exact ⟨rfl, rfl, rfl, rfl⟩

end Open

/-! ### EDIT (R183) -/

theorem editFieldOf_eq (b : Byte) : editFieldOf b = ([none, some EditField.spanLow, some .spanHigh, some .p, some .d,
    some .w, some .channel, some .tag][b.toNat]?).join := by
  revert b; decide

theorem editFieldOf_eq_none {b : Byte} (h : b.toNat = 0 ∨ 7 < b.toNat) : editFieldOf b = none := by
  rw [editFieldOf_eq]
  rcases h with h | h
  · rw [h]; rfl
  · rw [List.getElem?_eq_none (by exact h)]; rfl

theorem editFieldOf_of_range {b : Byte} (h1 : 1 ≤ b.toNat) (h7 : b.toNat ≤ 7) : ∃ f, editFieldOf b = some f := by
  rw [editFieldOf_eq]
  generalize b.toNat = n at h1 h7
  interval_cases n <;> exact ⟨_, rfl⟩

/-- The span edges belong to the kinds that have no channel (R183). -/
theorem EditField.belongs_span {f : EditField} (hf : f = .spanLow ∨ f = .spanHigh) (r : Record) :
    f.belongs r.kind = true ↔ ¬ ∃ tag ch a, r.part = .neighbour tag ch a := by
  rw [Record.kind]
  rcases hf with rfl | rfl <;> cases r.part <;> simp [Part.kind, EditField.belongs]

/-- The period, the duration and the tolerance belong to an oven (R183). -/
theorem EditField.belongs_oven {f : EditField} (hf : f = .p ∨ f = .d ∨ f = .w) (r : Record) :
    f.belongs r.kind = true ↔ ∃ o, r.part = .oven o := by
  rw [Record.kind]
  rcases hf with rfl | rfl | rfl <;> cases r.part <;> simp [Part.kind, EditField.belongs]

/-- The channel and the tag belong to a neighbour (R183). -/
theorem EditField.belongs_neighbour {f : EditField} (hf : f = .channel ∨ f = .tag) (r : Record) :
    f.belongs r.kind = true ↔ ∃ tag ch a, r.part = .neighbour tag ch a := by
  rw [Record.kind]
  rcases hf with rfl | rfl <;> cases r.part <;> simp [Part.kind, EditField.belongs]

section Edit
variable {s : State} {b v2 v1 v0 : Byte} (executing : s.Executing 0x42 [b, v2, v1, v0])
include executing

theorem execEditField_of_no_field (code : editFieldOf b = none) : execEditField s = .next (s.finish [0x01]) := by
  simp only [execEditField, executing.request, code]; rfl

variable {f : EditField} (code : editFieldOf b = some f)
include code

theorem execEditField_of_closed (hc : s.cursor = none) : execEditField s = .next (s.finish [0x0E]) := by
  simp only [execEditField, executing.request, code, hc]; rfl

variable {c : Cursor} {r : Record} (hc : s.cursor = some c) (hr : s.table.record c.slot = some r)
include hc hr

/-- A field of the held kind takes the clamped value, and another is INVALID (R183). -/
theorem execEditField_of_field {kinds : Prop} (belongs : f.belongs r.kind = true ↔ kinds) :
    let v := (v2.toNat * 256 + v1.toNat) * 256 + v0.toNat
    let kept := max f.range.1 (min f.range.2 v)
    (¬ kinds → execEditField s = .next (s.finish [0x01]))
      ∧ (kinds → execEditField s = .next
        (State.finish { s with cursor := some { c with staged := c.staged.stage f kept } }
          [if kept = v then 0x00 else 0x80, BitVec.ofNat 8 (kept / 65536), BitVec.ofNat 8 (kept / 256),
            BitVec.ofNat 8 kept])) := by
  intro v kept
  have held : (s.heldRecord.map (fun r => f.belongs r.kind)).getD false = f.belongs r.kind := by
    rw [State.heldRecord_of_cursor hc, hr]; rfl
  refine ⟨fun no => ?_, fun yes => ?_⟩
  · simp only [execEditField, executing.request, code, hc]
    exact if_pos (held.trans (by simpa using mt belongs.1 no))
  · simp only [execEditField, executing.request, code, hc, held, belongs.2 yes, valueOf_three, bytesOf_three,
      State.answerOk_eq, clampNat, decide_eq_true_eq, ite_not, Bool.true_eq_false, if_false]
    rfl

end Edit

/-- Settles O46: OPEN by what the cursor holds, EDIT field by field. -/
theorem openAndEdit : Obligations.OpenAndEdit := by
  intro s
  refine ⟨fun h1 h0 executing => ⟨fun e refused => execOpenRecord_of_refused executing refused, fun i r resolved =>
      ⟨fun c q hc hq retired => ?_, fun c q hc hq live ne => execOpenRecord_of_other executing resolved hc hq live ne,
        fun c hc same => execOpenRecord_of_same executing resolved hc same, fun hc => ?_⟩⟩,
    fun f v2 v1 v0 executing => ⟨fun outside => execEditField_of_no_field executing (editFieldOf_eq_none outside),
      fun least most hc => ?_⟩, ?_⟩
  · refine execOpenRecord_of_retired executing resolved ?_
    rw [State.holdsRetired_of_record hc hq, retired]; rfl
  · obtain ⟨-, -, -, occupied, -⟩ := Table.resolve_record resolved
    refine (execOpenRecord_of_closed executing resolved hc).trans ?_
    rw [State.opened_eq occupied]
    rfl
  · obtain ⟨field, code⟩ := editFieldOf_of_range least most
    exact execEditField_of_closed executing code hc
  · intro f v2 v1 v0 c r executing hc hr v g oven neighbour edits
    refine ⟨?_, ?_, ?_, ?_, ?_, ?_, ?_⟩ <;> rintro rfl
    · exact execEditField_of_field executing (f := .spanLow) rfl hc hr (EditField.belongs_span (.inl rfl) r)
    · exact execEditField_of_field executing (f := .spanHigh) rfl hc hr (EditField.belongs_span (.inr rfl) r)
    · exact execEditField_of_field executing (f := .p) rfl hc hr (EditField.belongs_oven (.inl rfl) r)
    · exact execEditField_of_field executing (f := .d) rfl hc hr (EditField.belongs_oven (.inr (.inl rfl)) r)
    · exact execEditField_of_field executing (f := .w) rfl hc hr (EditField.belongs_oven (.inr (.inr rfl)) r)
    · exact execEditField_of_field executing (f := .channel) rfl hc hr (EditField.belongs_neighbour (.inl rfl) r)
    · exact execEditField_of_field executing (f := .tag) rfl hc hr (EditField.belongs_neighbour (.inr rfl) r)

end Sys2Proof.Machine
end

section
/-! PROOFS. A commit: the staged fields over the record, and what falls together with a rebase (R66, R185, R186). -/

namespace Sys2Proof.Machine

/-! ### The span of a commit (R185) -/

theorem Span.committed_of_unstaged (x : Span) : x.committed none none = some (x, false) := rfl

/-- Of a lawful span, a commit without an edge staged is the commit of the edges as they stand. -/
theorem Span.committed_of_lawful {x : Span} (law : x.Lawful) (lo hi : Option Nat) : x.committed lo hi =
    if hi.getD x.hi < lo.getD x.lo then none
    else if hi.getD x.hi - lo.getD x.lo ≤ 40 then some ({ lo := lo.getD x.lo, hi := hi.getD x.hi }, false)
    else if lo.isNone then some ({ lo := hi.getD x.hi - 40, hi := hi.getD x.hi }, true)
    else some ({ lo := lo.getD x.lo, hi := lo.getD x.lo + 40 }, true) := by
  obtain ⟨ordered, -, narrow⟩ := law
  unfold Span.committed
  dsimp only
  split
  · next unstaged =>
    simp only [Bool.and_eq_true, Option.isNone_iff_eq_none] at unstaged
    obtain ⟨rfl, rfl⟩ := unstaged
    rw [Option.getD_none, Option.getD_none, if_neg (not_lt.2 ordered), if_pos narrow]
  · rfl

/-! ### The part of a commit (R67, R68, R186) -/

theorem clampP16_of_range {v : Nat} (lo : 256000 ≤ v) (hi : v ≤ 336000) : clampP16 v = v := by
  unfold clampP16 clampInt; omega

theorem clampD_of_range {v : Nat} (lo : 1000 ≤ v) (hi : v ≤ 15000) : clampD v = v := by
  unfold clampD clampInt; omega

theorem clampW_of_range {v : Nat} (lo : 250 ≤ v) (hi : v ≤ 4000) : clampW v = v := by
  unfold clampW clampInt; omega

/-- A staged value in its range is laid over the field as it is. -/
theorem map_clamp_of_mem {clamp : Int → Nat} {x : Option Nat} (h : ∀ v ∈ x, clamp v = v) :
    x.map (fun v => clamp v) = x := by
  cases x with
  | none => rfl
  | some v => exact congrArg some (h v rfl)

theorem OvenPart.committed_of_lawful (o : OvenPart) {g : Staged} (law : g.Lawful) : o.committed g =
    { o with
      periodKnown := o.periodKnown || g.p.isSome
      p16 := g.p.getD o.p16, d := g.d.getD o.d, w := g.w.getD o.w } := by
  obtain ⟨-, -, period, duration, tolerance, -, -⟩ := law
  rw [OvenPart.committed,
    map_clamp_of_mem fun v hv => clampP16_of_range (period v hv).1 (period v hv).2,
    map_clamp_of_mem fun v hv => clampD_of_range (duration v hv).1 (duration v hv).2,
    map_clamp_of_mem fun v hv => clampW_of_range (tolerance v hv).1 (tolerance v hv).2]

/-! ### The record of a commit (R185, R186) -/

section Committed
variable {r q : Record} {g : Staged} {clamped : Bool}

theorem Record.committed_of_oven {o : OvenPart} (part : r.part = .oven o) : r.committed g =
    (r.span.committed g.spanLow g.spanHigh).map
      (fun x => ({ r with span := x.1, part := .oven (o.committed g) }, x.2)) := by
  simp only [Record.committed, part]

theorem Record.committed_of_steady {a : Airtime} (part : r.part = .steady a) : r.committed g =
    (r.span.committed g.spanLow g.spanHigh).map (fun x => ({ r with span := x.1 }, x.2)) := by
  simp only [Record.committed, part]

theorem Record.committed_of_neighbour {tag : BitVec 16} {ch : Nat} {a : Airtime} (part : r.part = .neighbour tag ch a) :
    r.committed g = some ({ r with
      span := (g.channel.map channelSpan).getD r.span
      part := .neighbour ((g.tag.map (BitVec.ofNat 16)).getD tag) (g.channel.getD ch) a }, false) := by
  simp only [Record.committed, part]

/-- A record that is not of a channel takes the committed span, or is refused with it. -/
theorem Record.committed_of_span (kind : r.kind ≠ .neighbour) : ∃ part, r.committed g =
    (r.span.committed g.spanLow g.spanHigh).map (fun x => ({ r with span := x.1, part := part }, x.2)) := by
  cases hp : r.part with
  | oven o => exact ⟨_, Record.committed_of_oven hp⟩
  | steady a => exact ⟨r.part, Record.committed_of_steady hp⟩
  | neighbour tag ch a => exact absurd (by rw [Record.kind, hp]; rfl) kind

/-- The staged fields are laid over the part of each kind. -/
theorem Record.committed_part (law : g.Lawful) (h : r.committed g = some (q, clamped)) :
    (∀ o, r.part = .oven o → q.part = .oven
        { o with
          periodKnown := o.periodKnown || g.p.isSome
          p16 := g.p.getD o.p16, d := g.d.getD o.d, w := g.w.getD o.w })
      ∧ (∀ tag ch a, r.part = .neighbour tag ch a → q.part = .neighbour
          ((g.tag.map (BitVec.ofNat 16)).getD tag) (g.channel.getD ch) a ∧ clamped = false)
      ∧ (∀ a, r.part = .steady a → q.part = .steady a) := by
  refine ⟨fun o part => ?_, fun tag ch a part => ?_, fun a part => ?_⟩
  · rw [Record.committed_of_oven part] at h
    obtain ⟨x, -, e⟩ := Option.map_eq_some_iff.1 h
    cases e
    exact congrArg Part.oven (OvenPart.committed_of_lawful o law)
  · rw [Record.committed_of_neighbour part] at h
    cases h
    exact ⟨rfl, rfl⟩
  · rw [Record.committed_of_steady part] at h
    obtain ⟨x, -, e⟩ := Option.map_eq_some_iff.1 h
    cases e
    exact part

theorem Record.committed_of_no_edge (kind : r.kind ≠ .neighbour) (low : g.spanLow = none) (high : g.spanHigh = none)
    (h : r.committed g = some (q, clamped)) : q.span = r.span ∧ clamped = false := by
  obtain ⟨part, committed⟩ := Record.committed_of_span (g := g) kind
  rw [committed, low, high, Span.committed_of_unstaged] at h
  cases h
  exact ⟨rfl, rfl⟩

/-- Crossed edges refuse the commit, and a width above 40 moves an edge inward, the high one where the low is staged. -/
theorem Record.committed_edges (kind : r.kind ≠ .neighbour) (law : r.span.Lawful) :
    let l := g.spanLow.getD r.span.lo
    let h := g.spanHigh.getD r.span.hi
    (h < l → r.committed g = none)
      ∧ (l ≤ h → h - l ≤ 40 → ∃ q, r.committed g = some (q, false) ∧ q.span = { lo := l, hi := h })
      ∧ (l + 40 < h → g.spanLow = none → ∃ q, r.committed g = some (q, true)
          ∧ q.span = { lo := h - 40, hi := h })
      ∧ (l + 40 < h → g.spanLow.isSome = true → ∃ q, r.committed g = some (q, true)
          ∧ q.span = { lo := l, hi := l + 40 }) := by
  intro l h
  obtain ⟨part, committed⟩ := Record.committed_of_span (g := g) kind
  have passes {y : Span} {clamped : Bool} (hy : r.span.committed g.spanLow g.spanHigh = some (y, clamped)) :
      ∃ q, r.committed g = some (q, clamped) ∧ q.span = y :=
    ⟨_, by rw [committed, hy]; rfl, rfl⟩
  have span : r.span.committed g.spanLow g.spanHigh = if h < l then none else if h - l ≤ 40 then some (⟨l, h⟩, false)
      else if g.spanLow.isNone then some (⟨h - 40, h⟩, true) else some (⟨l, l + 40⟩, true) :=
    Span.committed_of_lawful law _ _
  refine ⟨fun crossed => ?_, fun ordered narrow => passes ?_, fun wide unstaged => passes ?_,
    fun wide staged => passes ?_⟩
  · rw [committed, span, if_pos crossed]; rfl
  · rw [span, if_neg (not_lt.2 ordered), if_pos narrow]
  · rw [span, if_neg (by omega), if_neg (by omega), if_pos (by rw [unstaged]; rfl)]
  · rw [span, if_neg (by omega), if_neg (by omega), if_neg (by rw [Option.isNone_eq_false_iff.2 staged]; simp)]

end Committed

/-! ### A commit that falls together with a rebase (R66) -/

section Rebase
variable {o new : OvenPart} {b : Timebase}

theorem OvenPart.meetsRebase_of_due (due : b.boundaryDue = true) :
    o.meetsRebase new b = { new with stood := some (o.stood.getD o.p16) } := if_pos due

/-- Past its instant a boundary meets no commit. -/
theorem OvenPart.meetsRebase_of_past (done : b.boundaryDue = false) (past : b.epochTimer ≠ 0) : o.meetsRebase new b = new := by
  rcases o.meetsRebase_cases new b with ⟨due, -⟩ | ⟨_, _, -, zero, -⟩ | e
  · simp [done] at due
  · exact absurd zero past
  · exact e

/-- An anchor that is not the one that the rebase left meets no commit. -/
theorem OvenPart.meetsRebase_of_moved (done : b.boundaryDue = false)
    (moved : ∀ x ∈ o.former, o.phaseKnown = false ∨ o.a16 ≠ x.after) : o.meetsRebase new b = new := by
  rcases o.meetsRebase_cases new b with ⟨due, -⟩ | ⟨x, _, -, -, phase, former, stays, -⟩ | e
  · simp [done] at due
  · rcases moved x former with h | h
    · simp [phase] at h
    · exact absurd stays h
  · exact e

theorem OvenPart.meetsRebase_of_taken {x : Rebase} (done : b.boundaryDue = false) (now : b.epochTimer = 0)
    (phase : o.phaseKnown = true) (former : o.former = some x) (stays : o.a16 = x.after) : o.meetsRebase new b =
      { new with
        a16 := rebasedAnchor x.before new.p16 (to16 b.time)
        former := some { before := x.before, after := rebasedAnchor x.before new.p16 (to16 b.time) } } := by
  simp only [OvenPart.meetsRebase, done, former, Bool.false_eq_true, if_false]
  exact if_pos ⟨now, phase, stays⟩

variable {s : State} {r q : Record} {g : Staged}

theorem State.meetsRebase_of_period (old : r.part = .oven o) (committed : q.part = .oven new) (known : o.periodKnown = true)
    (staged : g.p.isSome = true) : s.meetsRebase r g q = { q with part := .oven (o.meetsRebase new s.timebase) } := by
  simp only [State.meetsRebase, old, committed, known, staged, Bool.and_self, if_true]

/-- A commit without P, of an oven of no period, or at another instant meets no rebase. -/
theorem State.meetsRebase_of_apart (apart : g.p = none ∨ (∀ o, r.part = .oven o → o.periodKnown = false)
    ∨ (s.timebase.boundaryDue = false ∧ s.timebase.epochTimer ≠ 0)) : s.meetsRebase r g q = q := by
  rcases s.meetsRebase_frame r g q with e | ⟨o, new, old, committed, known, staged, e⟩
  · exact e
  rcases apart with none | unknown | ⟨done, past⟩
  · simp [none] at staged
  · simp [unknown o old] at known
  · rw [e, OvenPart.meetsRebase_of_past done past, ← committed]

end Rebase

/-- Settles O48: the staged fields are laid over the span and the part, and a rebase is met as R66 has it. -/
theorem commitOverlaysStagedFields : Obligations.CommitOverlaysStagedFields := by
  intro r g law staged
  refine ⟨fun q clamped h => ?_, fun kind => Record.committed_edges kind law.1, fun s q =>
    ⟨State.meetsRebase_of_apart, fun o new old committed known period => ?_⟩⟩
  · obtain ⟨frame, kind⟩ := Record.committed_frame h
    obtain ⟨oven, neighbour, steady⟩ := Record.committed_part staged h
    exact ⟨Record.committed_spanLawful law staged h, frame, kind, oven, neighbour, steady,
      fun kind low high => Record.committed_of_no_edge kind low high h⟩
  · have meets := State.meetsRebase_of_period (s := s) old committed known period
    refine ⟨fun due => ?_, fun done moved => ?_, fun x done now phase former stays => ?_⟩
    · rw [meets, OvenPart.meetsRebase_of_due due]
    · rw [meets, OvenPart.meetsRebase_of_moved done moved, ← committed]
    · rw [meets, OvenPart.meetsRebase_of_taken done now phase former stays]
      rfl

end Sys2Proof.Machine
end

section
/-! PROOFS. CLOSE and NEXT: what a passing commit leaves of its record, the closing of the cursor, and the walk round the
table (R184 to R187). -/

namespace Sys2Proof.Machine

/-! ### What a passing commit leaves (R186) -/

section Commit
variable {s : State} {c : Cursor} {r q : Record} {g : Staged} {clamped : Bool}

/-- A commit that makes a period known confirms where the committed record satisfies confirmation. -/
theorem Record.commitConfirms_iff {p : Params} (h : r.committed g = some (q, clamped)) : r.commitConfirms g p = true ↔
    r.learnsPeriod g = true ∧ q.state = .candidate ∧ p.confirms q = true := by
  cases hp : r.part with
  | oven o =>
    rw [Record.committed_of_oven hp] at h
    obtain ⟨x, -, e⟩ := Option.map_eq_some_iff.1 h
    cases e
    simp only [Record.commitConfirms, Record.learnsPeriod, Record.oven?_of_part hp, hp, Params.confirms,
      OvenPart.committed, Bool.and_eq_true, Bool.or_eq_true, beq_iff_eq]
    tauto
  | neighbour tag ch a => simp [Record.commitConfirms, Record.learnsPeriod, Record.oven?, hp]
  | steady a => simp [Record.commitConfirms, Record.learnsPeriod, Record.oven?, hp]

theorem Record.oven_of_learnsPeriod (h : r.learnsPeriod g = true) : ∃ o, r.part = .oven o ∧ o.periodKnown = false := by
  unfold Record.learnsPeriod at h
  split at h
  · next o ho =>
    rw [Bool.and_eq_true, Bool.not_eq_true'] at h
    exact ⟨o, Record.oven?_eq_some.1 ho, h.1⟩
  · cases h

/-- A commit of the first P meets no rebase (R66). -/
theorem State.meetsRebase_of_learnsPeriod (h : r.learnsPeriod g = true) : s.meetsRebase r g q = q := by
  obtain ⟨o, part, unknown⟩ := Record.oven_of_learnsPeriod h
  refine State.meetsRebase_of_apart (.inr (.inl fun o' part' => ?_))
  cases part.symm.trans part'
  exact unknown

/-- The record that a passing commit of `r` to `q` leaves, before it is let go. -/
def State.keptRecord (s : State) (r : Record) (g : Staged) (q : Record) : Record :=
  if r.commitConfirms g s.params then (s.meetsRebase r g q).asTracked else s.meetsRebase r g q

theorem State.keptRecord_live (live : r.state ≠ .retired) (h : r.committed g = some (q, clamped)) :
    (s.keptRecord r g q).state ≠ .retired := by
  unfold State.keptRecord
  split
  · simp
  · rwa [(s.meetsRebase_keeps _ _ _).1, (Record.committed_frame h).1]

variable (hr : s.table.record c.slot = some r) (h : r.committed c.staged = some (q, clamped))
include hr h

/-- A passing commit writes its record, and then confirms it with its notice where it confirms. -/
theorem State.commitTo_eq : s.commitTo c r q =
    if r.commitConfirms c.staged s.params then
      ((s.putRecord c.slot q).putRecord c.slot q.confirmed).raise .ovenConfirmed (s.table.subject c.slot) .none
    else s.putRecord c.slot (s.meetsRebase r c.staged q) := by
  have lt := Table.lt_of_record hr
  unfold State.commitTo
  by_cases learns : r.learnsPeriod c.staged = true
  · have put : (s.putRecord c.slot q).table.record c.slot = some q := State.record_putRecord lt
    have subject : (s.putRecord c.slot q).table.subject c.slot = s.table.subject c.slot := by
      rw [Table.subject, State.table_putRecord, Table.slot_put lt, Table.subject]
    have oven : q.kind = .oven := by
      obtain ⟨o, part, -⟩ := Record.oven_of_learnsPeriod learns
      rw [(Record.committed_frame h).2, Record.kind, part]; rfl
    rw [if_pos learns, State.meetsRebase_of_learnsPeriod learns, State.confirm_of_record put, subject, oven]
    exact if_congr (by rw [Record.commitConfirms_iff h, State.params_putRecord]; tauto) rfl rfl
  · rw [if_neg learns, if_neg fun confirms => learns ((Record.commitConfirms_iff h).1 confirms).1]

/-- What a passing commit does before the record is let go. -/
theorem State.commitTo_frame :
    (s.commitTo c r q).table.slot c.slot = ⟨(s.table.slot c.slot).gen, some (s.keptRecord r c.staged q)⟩
      ∧ (∀ j, j ≠ c.slot → (s.commitTo c r q).table.slot j = s.table.slot j)
      ∧ (s.commitTo c r q).table.seqCounter = s.table.seqCounter
      ∧ (s.commitTo c r q).notices = (if r.commitConfirms c.staged s.params then
          (s.raise .ovenConfirmed (s.table.subject c.slot) .none).notices else s.notices)
      ∧ s.commitTo c r q = { s with table := (s.commitTo c r q).table, notices := (s.commitTo c r q).notices } := by
  have lt := Table.lt_of_record hr
  rw [State.commitTo_eq hr h, State.keptRecord]
  by_cases confirms : r.commitConfirms c.staged s.params = true
  · have same := State.meetsRebase_of_learnsPeriod (s := s) (q := q) ((Record.commitConfirms_iff h).1 confirms).1
    have lt' : c.slot < (s.putRecord c.slot q).table.slots.length := by
      rwa [State.table_putRecord, Table.put, Table.length_replace]
    rw [if_pos confirms, if_pos confirms, if_pos confirms, same]
    refine ⟨?_, fun j ne => ?_, by rw [State.raise_table]; rfl,
      State.raise_notices_congr (u := (s.putRecord c.slot q).putRecord c.slot q.confirmed) (v := s) rfl rfl _ _ _,
      (State.raise_frame _ _ _ _).trans (by rw [State.raise_table]; rfl)⟩
    · rw [State.raise_table, State.table_putRecord, Table.slot_put lt', State.table_putRecord, Table.slot_put lt]
      rfl
    · rw [State.raise_table, State.table_putRecord, Table.slot_put_ne ne, State.table_putRecord, Table.slot_put_ne ne]
  · rw [if_neg confirms, if_neg confirms, if_neg confirms]
    exact ⟨Table.slot_put lt, fun j ne => Table.slot_put_ne ne, rfl, rfl, rfl⟩

end Commit

/-- The cursor closed on a record that a commit has rewritten to `kept` and let go, with the notice of a confirmation. -/
structure State.Committed (s : State) (c : Cursor) (kept : Record) (confirmed : Bool) (u : State) : Prop where
  slot : u.table.slot c.slot = ⟨(s.table.slot c.slot).gen, some { kept with held := false }⟩
  others : ∀ j, j ≠ c.slot → u.table.slot j = s.table.slot j
  seqCounter : u.table.seqCounter = s.table.seqCounter
  cursor : u.cursor = none
  notices : u.notices = if confirmed then
    (s.raise .ovenConfirmed (.handle c.slot (s.table.slot c.slot).gen) .none).notices else s.notices
  frame : u = { s with table := u.table, cursor := u.cursor, notices := u.notices }

theorem State.committed_of_passes {s : State} {c : Cursor} {r q : Record} {clamped : Bool} (hc : s.cursor = some c)
    (hr : s.table.record c.slot = some r) (h : r.committed c.staged = some (q, clamped)) :
    s.Committed c (s.keptRecord r c.staged q) (r.commitConfirms c.staged s.params) (s.commitTo c r q).letGo := by
  obtain ⟨slot, others, counter, notices, frame⟩ := State.commitTo_frame hr h
  have put := Table.record_eq_of_slot slot
  have letGo := State.letGo_of_record (State.commitTo_cursor.trans hc) put
  refine ⟨?_, fun j ne => ?_, ?_, ?_, ?_, ?_⟩
  · rw [letGo]
    exact (Table.slot_put (Table.lt_of_record put)).trans (by rw [slot])
  · rw [letGo]
    exact (Table.slot_put_ne ne).trans (others j ne)
  · rw [letGo]; exact counter
  · rw [letGo]
  · rw [letGo]; exact notices
  · rw [letGo, frame]; rfl

theorem resultByte_ok (clamped : Bool) : resultByte .ok clamped = if clamped then 0x80 else 0x00 := by
  cases clamped <;> rfl

/-! ### CLOSE (R184) -/

section Close
variable {s : State} {mode : Byte} (executing : s.Executing 0x43 [mode])
include executing

theorem execCloseRecord_of_no_mode (h0 : mode ≠ 0x00) (h1 : mode ≠ 0x01) : execCloseRecord s = .next (s.finish [0x01]) := by
  have code : onOffOf mode = none := by rw [onOffOf, if_neg h0, if_neg h1]
  simp only [execCloseRecord, executing.request, code]; rfl

theorem execCloseRecord_of_closed (h : mode = 0x00 ∨ mode = 0x01) (hc : s.cursor = none) :
    execCloseRecord s = .next (s.finish [0x0E]) := by
  rcases h with rfl | rfl
  · have code : onOffOf 0x00 = some false := rfl
    simp only [execCloseRecord, executing.request, code, hc]; rfl
  · have code : onOffOf 0x01 = some true := rfl
    simp only [execCloseRecord, executing.request, code, hc]; rfl

variable {c : Cursor} (hc : s.cursor = some c)
include hc

theorem execCloseRecord_of_discard (discard : mode = 0x00) : execCloseRecord s =
    .next ((s.closeDiscard c).state.finish [resultByte (s.closeDiscard c).status (s.closeDiscard c).clamped]) := by
  subst discard
  have code : onOffOf 0x00 = some false := rfl
  simp only [execCloseRecord, executing.request, code, hc, Bool.false_eq_true, if_false]

theorem execCloseRecord_of_commit (commit : mode = 0x01) : execCloseRecord s =
    .next ((s.closeCommit c).state.finish [resultByte (s.closeCommit c).status (s.closeCommit c).clamped]) := by
  subst commit
  have code : onOffOf 0x01 = some true := rfl
  simp only [execCloseRecord, executing.request, code, hc, if_true]

variable {r : Record} (hr : s.table.record c.slot = some r)
include hr

theorem execCloseRecord_of_retired (h : mode = 0x00 ∨ mode = 0x01) (retired : r.state = .retired) :
    execCloseRecord s = .next ((s.releaseGone c).finish [0x05]) := by
  rcases h with discard | commit
  · have gone : s.closeDiscard c = ⟨s.releaseGone c, .gone, false⟩ := by
      refine if_pos ?_
      rw [State.holdsRetired_of_record hc hr, retired]; rfl
    rw [execCloseRecord_of_discard executing hc discard, gone]; rfl
  · rw [execCloseRecord_of_commit executing hc commit, State.closeCommit_of_retired hr retired]; rfl

theorem execCloseRecord_of_discarded (discard : mode = 0x00) (live : r.state ≠ .retired) : execCloseRecord s = .next
    (State.finish { s.putRecord c.slot { r with held := false } with cursor := none } [0x00]) := by
  have letGo : s.closeDiscard c = ⟨s.letGo, .ok, false⟩ := by
    refine if_neg ?_
    simpa [State.holdsRetired_of_record hc hr] using live
  rw [execCloseRecord_of_discard executing hc discard, letGo, State.letGo_of_record hc hr]; rfl

theorem execCloseRecord_of_refused (commit : mode = 0x01) (live : r.state ≠ .retired)
    (refused : r.committed c.staged = none) : execCloseRecord s = .next (s.finish [0x01]) := by
  rw [execCloseRecord_of_commit executing hc commit, State.closeCommit_of_refused hr live refused]; rfl

theorem execCloseRecord_of_passes (commit : mode = 0x01) (live : r.state ≠ .retired) {q : Record} {clamped : Bool}
    (passes : r.committed c.staged = some (q, clamped)) :
    execCloseRecord s = .next ((s.commitTo c r q).letGo.finish [if clamped then 0x80 else 0x00]) := by
  rw [execCloseRecord_of_commit executing hc commit, State.closeCommit_of_passes hr live passes, resultByte_ok]

end Close

/-- Settles O47: the mode, what the cursor holds, and what its commit comes to. -/
theorem closeReleases : Obligations.CloseReleases := by
  intro s mode executing
  refine ⟨execCloseRecord_of_no_mode executing, fun valid => ⟨execCloseRecord_of_closed executing valid, fun c r hc hr =>
    ⟨execCloseRecord_of_retired executing hc hr valid, fun live discard =>
      execCloseRecord_of_discarded executing hc hr discard live, fun live commit =>
        ⟨execCloseRecord_of_refused executing hc hr commit live, fun q clamped passes => ?_⟩⟩⟩⟩
  have committed := State.committed_of_passes hc hr passes
  refine ⟨_, execCloseRecord_of_passes executing hc hr commit live passes, committed.slot.trans ?_, committed.others,
    committed.seqCounter, committed.cursor, committed.notices, ?_, ?_⟩
  · rw [State.keptRecord]
    split <;> rfl
  · rw [committed.frame]; rfl
  · rw [committed.frame]; rfl

end Sys2Proof.Machine
end

section
/-! PROOFS. NEXT: the closing of what is held and the walk round the table (R187). -/

namespace Sys2Proof.Machine

/-! ### The walk (R187) -/

/-- The place of a slot in the walk after slot `k`: 0 for the next, 63 for `k` itself. -/
def walkPlace (k i : Nat) : Nat := (i + 63 - k) % 64

theorem nextOrder_ascending {k : Nat} (hk : k < 64) :
    (nextOrder (some k)).Pairwise (fun a b => walkPlace k a < walkPlace k b) := by
  rw [nextOrder, List.pairwise_map]
  refine List.Pairwise.imp_of_mem (fun {a b} ha hb lt => ?_) (List.pairwise_lt_range' (s := k + 1) (n := 64))
  rw [List.mem_range'_1] at ha hb
  unfold walkPlace
  omega

theorem mem_nextOrder {k i : Nat} (hk : k < 64) (hi : i < 64) : i ∈ nextOrder (some k) := by
  rw [nextOrder, List.mem_map]
  refine ⟨k + 1 + walkPlace k i, ?_, ?_⟩
  · rw [List.mem_range'_1]
    unfold walkPlace
    omega
  · unfold walkPlace
    omega

section FirstLive
variable {t : Table} {order : List Nat}

theorem Table.firstLive_of_none (h : ∀ j q, t.record j = some q → q.state = .retired) : t.firstLive order = none := by
  rw [Table.firstLive, List.find?_eq_none]
  intro j _
  cases hj : t.record j with
  | none => simp
  | some q => simp [Record.live, h j q hj]

/-- The first live slot of an order is that of the lowest place in it. -/
theorem Table.firstLive_of_first {place : Nat → Nat} {i : Nat} {r : Record}
    (asc : order.Pairwise (fun a b => place a < place b)) (mem : i ∈ order) (hr : t.record i = some r)
    (live : r.state ≠ .retired) (first : ∀ j q, t.record j = some q → q.state ≠ .retired → place i ≤ place j) :
    t.firstLive order = some i := by
  refine find?_of_ascending asc mem (by simpa [hr, Record.live_iff] using live) fun j _ hj => ?_
  cases hq : t.record j with
  | none => simp [hq] at hj
  | some q => exact first j q hq (by simpa [hq, Record.live_iff] using hj)

end FirstLive

theorem State.openNext_of_some {u : State} {held : Option Nat} {status : Byte} {i : Nat}
    (found : u.table.firstLive (nextOrder held) = some i) : u.openNext held status = u.opened i status := by
  simp only [State.openNext, found]; rfl

theorem State.openNext_of_none {u : State} {held : Option Nat} {status : Byte}
    (none : ∀ j q, u.table.record j = some q → q.state = .retired) :
    u.openNext held status = u.finish [0x04, status] := by
  simp only [State.openNext, Table.firstLive_of_none none]; rfl

/-! ### NEXT (R187) -/

section Next
variable {s : State} (executing : s.Executing 0x44 [])
include executing

theorem execNextRecord_of_closed (hc : s.cursor = none) : execNextRecord s = .next (s.openNext none 0x0E) := by
  simp only [execNextRecord, executing.request, hc]; rfl

section Lowest
variable (hc : s.cursor = none)
include hc

theorem execNextRecord_of_empty (empty : ∀ y ∈ s.table.records, y.2.state = .retired) :
    execNextRecord s = .next (s.finish [0x04, 0x0E]) := by
  rw [execNextRecord_of_closed executing hc,
    State.openNext_of_none fun j q hq => empty (j, q) (Table.mem_records.2 hq)]

theorem execNextRecord_of_lowest (len : s.table.slots.length = 64) {i : Nat} {r : Record} (hr : s.table.record i = some r)
    (live : r.state ≠ .retired) (lowest : ∀ y ∈ s.table.records, y.2.state ≠ .retired → i ≤ y.1) :
    execNextRecord s = .next (s.opened i 0x0E) := by
  have mem : i ∈ nextOrder none := List.mem_range.2 (len ▸ Table.lt_of_record hr)
  have asc : (nextOrder none).Pairwise (fun a b => id a < id b) := List.pairwise_lt_range
  rw [execNextRecord_of_closed executing hc, State.openNext_of_some (Table.firstLive_of_first asc mem hr live
    fun j q hq => lowest (j, q) (Table.mem_records.2 hq))]

end Lowest

variable {c : Cursor} (hc : s.cursor = some c)
include hc

theorem execNextRecord_of_closing {u : State} {status : Result} {clamped : Bool}
    (close : s.closeCommit c = ⟨u, status, clamped⟩) (valid : status ≠ .invalid) :
    execNextRecord s = .next (u.openNext (some c.slot) (resultByte status clamped)) := by
  simp only [execNextRecord, executing.request, hc, close]
  exact if_neg valid

variable {q : Record} (hq : s.table.record c.slot = some q)
include hq

theorem execNextRecord_of_refused (live : q.state ≠ .retired) (refused : q.committed c.staged = none) :
    execNextRecord s = .next (s.finish [0x01]) := by
  simp only [execNextRecord, executing.request, hc, State.closeCommit_of_refused hq live refused, if_true]
  rfl

theorem execNextRecord_of_retired (retired : q.state = .retired) :
    execNextRecord s = .next ((s.releaseGone c).openNext (some c.slot) 0x05) :=
  execNextRecord_of_closing executing hc (State.closeCommit_of_retired hq retired) (by decide)

theorem execNextRecord_of_passes (live : q.state ≠ .retired) {u : Record} {clamped : Bool}
    (passes : q.committed c.staged = some (u, clamped)) : execNextRecord s =
      .next ((s.commitTo c q u).letGo.openNext (some c.slot) (if clamped then 0x80 else 0x00)) := by
  rw [← resultByte_ok]
  exact execNextRecord_of_closing executing hc (State.closeCommit_of_passes hq live passes) (by decide)

end Next

/-! ### What the walk finds after the closing -/

/-- The first live record after slot `k`, round the table. -/
def Table.FirstAfter (t : Table) (k i : Nat) (r : Record) : Prop :=
  (i, r) ∈ t.records ∧ r.state ≠ .retired
    ∧ ∀ y ∈ t.records, y.2.state ≠ .retired → walkPlace k i ≤ walkPlace k y.1

theorem Table.FirstAfter.firstLive {t : Table} {k i : Nat} {r : Record} (first : t.FirstAfter k i r) (hk : k < 64)
    (hi : i < 64) : t.firstLive (nextOrder (some k)) = some i := by
  obtain ⟨mem, live, least⟩ := first
  exact Table.firstLive_of_first (nextOrder_ascending hk) (mem_nextOrder hk hi) (Table.mem_records.1 mem) live
    fun j q hq => least (j, q) (Table.mem_records.2 hq)

section Found
variable {s : State} {c : Cursor} {q : Record} (hq : s.table.record c.slot = some q)
include hq

/-- A freed slot leaves the other records. -/
theorem State.record_releaseGone {j : Nat} {r : Record} : (s.releaseGone c).table.record j = some r ↔
    j ≠ c.slot ∧ s.table.record j = some r := by
  rw [State.releaseGone]
  rcases eq_or_ne j c.slot with rfl | ne
  · simp [Table.record, Table.slot_release (Table.lt_of_record hq)]
  · simp [Table.record, Table.slot_release_ne ne, ne]

theorem State.firstAfter_releaseGone (retired : q.state = .retired) {i : Nat} {r : Record}
    (first : s.table.FirstAfter c.slot i r) : i ≠ c.slot ∧ (s.releaseGone c).table.FirstAfter c.slot i r := by
  obtain ⟨mem, live, least⟩ := first
  have hr := Table.mem_records.1 mem
  have ne : i ≠ c.slot := by
    rintro rfl
    cases hq.symm.trans hr
    exact live retired
  refine ⟨ne, Table.mem_records.2 ((State.record_releaseGone hq).2 ⟨ne, hr⟩), live, fun y hy => least y ?_⟩
  exact Table.mem_records.2 ((State.record_releaseGone hq).1 (Table.mem_records.1 hy)).2

omit hq in
theorem State.Committed.record {kept : Record} {confirmed : Bool} {u : State} (committed : s.Committed c kept confirmed u)
    (j : Nat) : u.table.record j = if j = c.slot then some { kept with held := false } else s.table.record j := by
  split
  · next e => rw [e, Table.record, committed.slot]
  · next ne => rw [Table.record, committed.others j ne, Table.record]

/-- The walk after a commit is the walk before it: the committed record is live as it was. -/
theorem State.Committed.firstAfter {kept : Record} {confirmed : Bool} {u : State} (committed : s.Committed c kept confirmed u)
    (was : q.state ≠ .retired) (live : kept.state ≠ .retired) {i : Nat} {r : Record}
    (first : s.table.FirstAfter c.slot i r) :
    u.table.FirstAfter c.slot i (if i = c.slot then { kept with held := false } else r) := by
  obtain ⟨mem, alive, least⟩ := first
  refine ⟨Table.mem_records.2 ?_, ?_, fun y hy alive' => ?_⟩
  · rw [committed.record, Table.mem_records.1 mem]
    split <;> rfl
  · split
    · exact live
    · exact alive
  · have hy' := Table.mem_records.1 hy
    rw [committed.record] at hy'
    split at hy'
    · next e => exact e ▸ least (c.slot, q) (Table.mem_records.2 hq) was
    · exact least y (Table.mem_records.2 hy') alive'

end Found

/-- The committed record is held again as it was kept. -/
theorem Record.held_of_kept (kept r : Record) (p : Prop) [Decidable p] :
    { (if p then { kept with held := false } else r) with held := true } = { (if p then kept else r) with held := true } := by
  split <;> rfl

/-! ### What NEXT opens (R187) -/

/-- NEXT opens the cursor on slot `i`, as whose record it holds `r`, and answers `status` after OK. -/
def State.OpensNext (s t : State) (i : Nat) (r : Record) (status : Byte) : Prop :=
  execNextRecord s = .next t ∧ t.table.slot i = ⟨(s.table.slot i).gen, some { r with held := true }⟩
    ∧ t.table.seqCounter = s.table.seqCounter
    ∧ t.cursor = some { slot := i, gen := (s.table.slot i).gen, staged := Staged.empty }
    ∧ t.link = s.link.opened i (s.table.slot i).gen r status

section Opens
variable {s : State} (executing : s.Executing 0x44 []) (len : s.table.slots.length = 64) {i : Nat} {r : Record}
include executing len

theorem State.opensNext_of_closed (hc : s.cursor = none) (hr : s.table.record i = some r) (live : r.state ≠ .retired)
    (lowest : ∀ y ∈ s.table.records, y.2.state ≠ .retired → i ≤ y.1) :
    ∃ t, s.OpensNext t i r 0x0E ∧ t = { s.putRecord i { r with held := true } with cursor := t.cursor, link := t.link } := by
  have opened := State.opened_eq hr 0x0E
  refine ⟨_, ⟨execNextRecord_of_lowest executing hc len hr live lowest, State.slot_opened hr _, ?_⟩, ?_⟩
  · rw [opened]; exact ⟨rfl, rfl, rfl⟩
  · rw [opened]; rfl

variable {c : Cursor} {q : Record} (hc : s.cursor = some c) (hk : c.slot < 64) (hq : s.table.record c.slot = some q)
  (first : s.table.FirstAfter c.slot i r)
include hc hk hq first

theorem State.opensNext_of_retired (retired : q.state = .retired) : ∃ t, s.OpensNext t i r 0x05
    ∧ t.table.slot c.slot = ⟨(s.table.slot c.slot).gen + 1, none⟩
    ∧ (∀ j, j ≠ i → j ≠ c.slot → t.table.slot j = s.table.slot j)
    ∧ t = { s with table := t.table, cursor := t.cursor, link := t.link } := by
  obtain ⟨ne, after⟩ := State.firstAfter_releaseGone hq retired first
  have hr := Table.mem_records.1 after.1
  have lt : i < 64 := len ▸ Table.lt_of_record (Table.mem_records.1 first.1)
  have next := execNextRecord_of_retired executing hc hq retired
  rw [State.openNext_of_some (after.firstLive hk lt)] at next
  have stays : (s.releaseGone c).table.slot i = s.table.slot i := Table.slot_release_ne ne
  have opened := State.opened_eq hr 0x05
  rw [stays] at opened
  refine ⟨_, ⟨next, ?_, ?_⟩, ?_, fun j nei nec => ?_, ?_⟩
  · rw [State.slot_opened hr, stays]
  · rw [opened]; exact ⟨rfl, rfl, rfl⟩
  · rw [State.slot_opened_ne hr _ ne.symm]
    exact Table.slot_release (Table.lt_of_record hq)
  · rw [State.slot_opened_ne hr _ nei]
    exact Table.slot_release_ne nec
  · rw [opened]; rfl

theorem State.opensNext_of_passes (live : q.state ≠ .retired) {u : Record} {clamped : Bool}
    (passes : q.committed c.staged = some (u, clamped)) :
    let kept := s.keptRecord q c.staged u
    ∃ t, s.OpensNext t i (if i = c.slot then kept else r) (if clamped then 0x80 else 0x00)
      ∧ (i ≠ c.slot → t.table.slot c.slot = ⟨(s.table.slot c.slot).gen, some { kept with held := false }⟩)
      ∧ (∀ j, j ≠ i → j ≠ c.slot → t.table.slot j = s.table.slot j)
      ∧ t.notices = (if q.commitConfirms c.staged s.params then
          (s.raise .ovenConfirmed (.handle c.slot (s.table.slot c.slot).gen) .none).notices else s.notices)
      ∧ t = { s with table := t.table, cursor := t.cursor, notices := t.notices, link := t.link } := by
  intro kept
  have committed : s.Committed c kept _ _ := State.committed_of_passes hc hq passes
  have after := committed.firstAfter hq live (State.keptRecord_live live passes) first
  have hr := Table.mem_records.1 after.1
  have lt : i < 64 := len ▸ Table.lt_of_record (Table.mem_records.1 first.1)
  have next := execNextRecord_of_passes executing hc hq live passes
  rw [State.openNext_of_some (after.firstLive hk lt)] at next
  have gen : ((s.commitTo c q u).letGo.table.slot i).gen = (s.table.slot i).gen := by
    rcases eq_or_ne i c.slot with e | ne
    · rw [e, committed.slot]
    · rw [committed.others i ne]
  have opened := State.opened_eq hr (if clamped then 0x80 else 0x00)
  rw [gen, Link.opened, Record.held_of_kept] at opened
  refine ⟨_, ⟨next, ?_, ?_⟩, fun ne => ?_, fun j nei nec => ?_, ?_, ?_⟩
  · rw [State.slot_opened hr, gen, Record.held_of_kept]
  · rw [opened]
    exact ⟨committed.seqCounter, rfl, by rw [committed.frame]; rfl⟩
  · rw [State.slot_opened_ne hr _ (Ne.symm ne), committed.slot]
  · rw [State.slot_opened_ne hr _ nei, committed.others j nec]
  · rw [opened]; exact committed.notices
  · rw [opened, committed.frame]

end Opens

/-- Settles O49: the closing by what is held, and the first live slot of the walk after it. -/
theorem nextWalksTheTable : Obligations.NextWalksTheTable := by
  intro s executing len held opens
  refine ⟨fun hc => ⟨execNextRecord_of_empty executing hc, fun i r mem live lowest =>
      State.opensNext_of_closed executing len hc (Table.mem_records.1 mem) live lowest⟩,
    fun c q hc hk hq => ⟨fun retired => ⟨fun i r first =>
        State.opensNext_of_retired executing len hc hk hq first retired, fun empty => ?_⟩, fun live =>
      ⟨execNextRecord_of_refused executing hc hq live, fun u clamped i r passes first =>
        State.opensNext_of_passes executing len hc hk hq first live passes⟩⟩⟩
  have none : ∀ j r, (s.releaseGone c).table.record j = some r → r.state = .retired := fun j r hr =>
    empty (j, r) (Table.mem_records.2 ((State.record_releaseGone hq).1 hr).2)
  refine (execNextRecord_of_retired executing hc hq retired).trans ?_
  rw [State.openNext_of_none none]
  rfl

end Sys2Proof.Machine
end
